-- ==== Sys2Proof/Word.lean ====
section
/-! DEFINITION. The two word types of the machine: a byte (a bus datum, an 8-bit register) and a 16-bit word
(PC, SP, a register pair, a bus address). 00_scope.md R5: the widths are fixed. -/

namespace Sys2Proof

/-- A bus datum or an 8-bit register (R5). -/
abbrev Byte := BitVec 8

/-- A 16-bit register, pair or datum (R5). -/
abbrev Word := BitVec 16

/-- A bus address (R5). -/
abbrev Addr := BitVec 16

end Sys2Proof
end

