-- ==== Sys2Proof/Machine/Bits.lean ====
section
/-! DEFINITION. Bytes and words: slicing, joining and extending (00_scope.md R9, R10), and the byte order they decide
(20_memory.md R64). -/

namespace Sys2Proof

/-- `hi8(w) = w[15:8]` (R9). -/
def hi8 (w : Word) : Byte := w.extractLsb' 8 8

/-- `lo8(w) = w[7:0]` (R9). -/
def lo8 (w : Word) : Byte := w.extractLsb' 0 8

/-- `{h, l} = h * 256 + l` (R9). -/
def join (h l : Byte) : Word := h ++ l

/-- `sext_16(e)`: a byte widened by copying its top bit (R10). -/
def sext16 (e : Byte) : Word := e.signExtend 16

/-- The high-page address `0xFF00 | zext_16(n)` (41_operands.md R168, R170). -/
def highPage (n : Byte) : Addr := 0xFF00#16 ||| n.setWidth 16

/-- `v[3:0]`, the low nibble. -/
def nibble (v : Byte) : BitVec 4 := v.extractLsb' 0 4

end Sys2Proof
end

