-- ==== Sys2Proof/Config.lean ====
section
/-! DEFINITION. The parameters the specification leaves open (00_scope.md R6), as plain data, and the free values.

`Bus`, `BootRom`, `BootDisableOn` and `WramMirror` are `Config`, the environment's part; `Implemented` is in `CoreConfig`,
the core's part; `RegInit` is an argument of reset. Both configurations are arguments of reset, and no step changes them. -/

namespace Sys2Proof

/-! ## The environment's parameters -/

/-- The environment behind the bus, the parameter `Bus` (R6). -/
inductive BusKind where
  /-- `RefBus`, the default: the source's address map made executable (20_memory.md R70). -/
  | ref
  /-- `FlatBus`: 65536 plain byte cells, a test aid of the specification (R71). -/
  | flat
  /-- Any other environment that honours the bus contract (R61, R62; 93_implementation_defined.md U10, U14): its `read`
  and `write` are the uninterpreted functions below, and a read may have side effects (notes/assumptions 7). -/
  | external
deriving DecidableEq, Repr

/-- `BootRom`: the 256 bytes of the boot overlay (R70), as cells 0x00 to 0xFF, addresses rising; a byte 0xFF is not
listed, so every contents has one form. -/
abbrev BootRom := List (Nat × Byte)

/-- The environment's configuration (R6, R70). -/
structure Config where
  /-- Which environment answers the bus. -/
  bus : BusKind
  /-- The contents of the boot overlay, if supplied. `RefBus` is not accepted without it (`Config.accepted`). -/
  bootRom : Option BootRom
  /-- The predicate `BootDisableOn` on the byte written to 0xFF50: bit `v` says whether writing `v` clears the
  boot-enable latch. -/
  bootDisableOn : BitVec 256
  /-- `WramMirror`: whether 0xE000 to 0xFDFF aliases 0xC000 to 0xDDFF. -/
  wramMirror : Bool
deriving DecidableEq, Repr

/-- The defaults of R6: `RefBus`, no `BootRom` ("none, must be supplied"), every written value clears the latch, no
aliasing. -/
def Config.default : Config where
  bus := .ref
  bootRom := none
  bootDisableOn := BitVec.allOnes 256
  wramMirror := false

/-- Whether the model accepts the configuration: not "a `RefBus` configuration without" `BootRom`
(93_implementation_defined.md U8). -/
def Config.accepted (c : Config) : Bool := !(decide (c.bus = .ref) && c.bootRom.isNone)

/-- `read` of an external environment (R61): the byte, and the environment's next state, from its state and the address.
A free value: it has no body, so a claim about it holds whatever environment it is. The state of an external environment
is coded as one number (notes/assumptions 7). -/
opaque Config.externalRead : Nat → Addr → Byte × Nat

/-- `write` of an external environment (R62): its next state. A free value, as `Config.externalRead` is. -/
opaque Config.externalWrite : Nat → Addr → Byte → Nat

/-- What the overlay of a `RefBus` without `BootRom` holds. A free value: the configuration is refused by every step, and
only an operation below a step can look at it (notes/assumptions 4). -/
opaque Config.unsuppliedByte : Addr → Byte

/-! ## The core's parameters -/

/-- `Implemented` (R6): a set of pairs of an opcode byte and the CB flag. Bit `v` of `base` says whether the pair of `v`
with the flag clear belongs to the set, bit `v` of `cb` whether the pair with the flag set does. -/
structure Implemented where
  base : BitVec 256
  cb : BitVec 256
deriving DecidableEq, Repr

/-- Whether a pair belongs to the set. -/
def Implemented.has (m : Implemented) (opcode : Byte) (cb : Bool) : Bool :=
  (if cb then m.cb else m.base).getLsbD opcode.toNat

/-- The default: the 134 base and 72 CB pairs of 30_encoding.md R100, R110 and R111 (decision D1). -/
def Implemented.default : Implemented where
  base := 0x4625042500200820ff00000000000000ffbfffffffffffff7d7f7d7f7c7e7d7f#256
  cb := 0x00000000000000000000000000000000ffffffffffffffff0000000000ff0000#256

/-- The call in which INC (HL), DEC (HL) and RL (HL) compute and write their flags. The two rules that say so disagree, and
90_conflicts.md does not rule between them (notes/assumptions 11). -/
inductive ModifyCall where
  /-- The call of the read: "work that needs no bus access is done as early as possible" (40_controller.md R147, decision
  D6 (b)). -/
  | read
  /-- The call of the write: the trace of `RL (HL)` in 70_reset_and_hazards.md R368. -/
  | write
deriving DecidableEq, Repr

/-- The core's configuration. -/
structure CoreConfig where
  implemented : Implemented
  modifyCall : ModifyCall
deriving DecidableEq, Repr

/-- The defaults: `Implemented` of decision D1, the schedule of R147. -/
def CoreConfig.default : CoreConfig where
  implemented := .default
  modifyCall := .read

/-- `RegInit` (R6, R43): the reset values of A, B, C, D, E, F[7:4], H, L and SP. F[3:0] has no entry: it is zero. -/
structure RegInit where
  a : Byte
  b : Byte
  c : Byte
  d : Byte
  e : Byte
  flags : BitVec 4
  h : Byte
  l : Byte
  sp : Word
deriving DecidableEq, Repr

/-- The default of `RegInit`: all zero (decision D3). -/
def RegInit.zero : RegInit where
  a := 0
  b := 0
  c := 0
  d := 0
  e := 0
  flags := 0
  h := 0
  l := 0
  sp := 0

end Sys2Proof
end

