-- ==== Sys2Proof/Syntax.lean ====
section
/-! DEFINITION. The syntax of the machine: registers, conditions, operand kinds, the handlers of the controller, and
`Instr`, one constructor for every row of the opcode table that has a mnemonic of its own (30_encoding.md R110, R111)
and one, with the opcode and the table as operands, for the rows without a handler (R113).

Constructor names are the specification's mnemonics (R116) in lower case with the operands after `_`: a memory operand
`(x)` is written `atX`, so `ld_atHL_n` is `LD (HL),n`. An operand `n`, `e` or `nn` is the immediate of R109. -/

namespace Sys2Proof

/-- The 8-bit registers an instruction can select (10_state.md R20, R21): F is not among them. -/
inductive Reg8 where
  | a | b | c | d | e | h | l
deriving DecidableEq, Repr

/-- The 16-bit registers and pairs (R22, R31). -/
inductive Reg16 where
  | bc | de | hl | sp | af
deriving DecidableEq, Repr

/-- The pairs that address memory in an indirect operand (41_operands.md R166). -/
inductive Ptr where
  | bc | de | hl
deriving DecidableEq, Repr

/-- The four conditions of `JR cc,e` (30_encoding.md R107). -/
inductive Cond where
  | nz | z | nc | c
deriving DecidableEq, Repr

/-- The 8-bit operand kinds (41_operands.md R160), without the bytes they take from the instruction stream. -/
inductive Kind8 where
  | reg (r : Reg8)
  | imm8
  | ind (p : Ptr)
  | indInc
  | indDec
  | highC
  | direct8Abs
  | direct8High
deriving DecidableEq, Repr

/-- The 16-bit operand kinds (R160). -/
inductive Kind16 where
  | reg16 (rr : Reg16)
  | imm16
  | direct16
deriving DecidableEq, Repr

/-- The handler the controller is running (10_state.md R34): the source's handler families over operand kinds
(00_scope.md R3, 30_encoding.md R116), the CB prefix, or none. R34 says "enum"; that its values carry the operand kinds is
the model's choice (DESIGN CHOICE, notes/assumptions 22). -/
inductive Handler where
  | idle
  | nop
  | prefixCb
  | ld8 (dst src : Kind8)
  | ld16 (dst src : Kind16)
  | cp (src : Kind8)
  | inc (k : Kind8)
  | dec (k : Kind8)
  | inc16 (rr : Reg16)
  | dec16 (rr : Reg16)
  | rl (k : Kind8)
  | bit (b : BitVec 3) (k : Kind8)
  | push (rr : Reg16)
  | jr (cc : Cond)
deriving DecidableEq, Repr

/-- The instructions, in the order of the opcode table. -/
inductive Instr where
  /-- `NOP` (R190). -/
  | nop
  /-- `LD BC,nn` (R251). -/
  | ld_BC_nn (nn : Word)
  /-- `LD (BC),A` (R207). -/
  | ld_atBC_A
  /-- `INC BC` (R276). -/
  | inc_BC
  /-- `INC B` (R272). -/
  | inc_B
  /-- `DEC B` (R273). -/
  | dec_B
  /-- `LD B,n` (R201). -/
  | ld_B_n (n : Byte)
  /-- `LD (nn),SP` (R252). -/
  | ld_atNN_SP (nn : Word)
  /-- `LD A,(BC)` (R205). -/
  | ld_A_atBC
  /-- `DEC BC` (R277). -/
  | dec_BC
  /-- `INC C` (R272). -/
  | inc_C
  /-- `DEC C` (R273). -/
  | dec_C
  /-- `LD C,n` (R201). -/
  | ld_C_n (n : Byte)
  /-- `LD DE,nn` (R251). -/
  | ld_DE_nn (nn : Word)
  /-- `LD (DE),A` (R208). -/
  | ld_atDE_A
  /-- `INC DE` (R276). -/
  | inc_DE
  /-- `INC D` (R272). -/
  | inc_D
  /-- `DEC D` (R273). -/
  | dec_D
  /-- `LD D,n` (R201). -/
  | ld_D_n (n : Byte)
  /-- `LD A,(DE)` (R206). -/
  | ld_A_atDE
  /-- `DEC DE` (R277). -/
  | dec_DE
  /-- `INC E` (R272). -/
  | inc_E
  /-- `DEC E` (R273). -/
  | dec_E
  /-- `LD E,n` (R201). -/
  | ld_E_n (n : Byte)
  /-- `JR NZ,e` (R321). -/
  | jr_NZ_e (e : Byte)
  /-- `LD HL,nn` (R251). -/
  | ld_HL_nn (nn : Word)
  /-- `LD (HL+),A` (R209). -/
  | ld_atHLinc_A
  /-- `INC HL` (R276). -/
  | inc_HL
  /-- `INC H` (R272). -/
  | inc_H
  /-- `DEC H` (R273). -/
  | dec_H
  /-- `LD H,n` (R201). -/
  | ld_H_n (n : Byte)
  /-- `JR Z,e` (R321). -/
  | jr_Z_e (e : Byte)
  /-- `LD A,(HL+)` (R211). -/
  | ld_A_atHLinc
  /-- `DEC HL` (R277). -/
  | dec_HL
  /-- `INC L` (R272). -/
  | inc_L
  /-- `DEC L` (R273). -/
  | dec_L
  /-- `LD L,n` (R201). -/
  | ld_L_n (n : Byte)
  /-- `JR NC,e` (R321). -/
  | jr_NC_e (e : Byte)
  /-- `LD SP,nn` (R251). -/
  | ld_SP_nn (nn : Word)
  /-- `LD (HL-),A` (R210). -/
  | ld_atHLdec_A
  /-- `INC SP` (R276). -/
  | inc_SP
  /-- `INC (HL)` (R274). -/
  | inc_atHL
  /-- `DEC (HL)` (R275). -/
  | dec_atHL
  /-- `LD (HL),n` (R204). -/
  | ld_atHL_n (n : Byte)
  /-- `JR C,e` (R321). -/
  | jr_C_e (e : Byte)
  /-- `LD A,(HL-)` (R212). -/
  | ld_A_atHLdec
  /-- `DEC SP` (R277). -/
  | dec_SP
  /-- `INC A` (R272). -/
  | inc_A
  /-- `DEC A` (R273). -/
  | dec_A
  /-- `LD A,n` (R201). -/
  | ld_A_n (n : Byte)
  /-- `LD B,B` (R200). -/
  | ld_B_B
  /-- `LD B,C` (R200). -/
  | ld_B_C
  /-- `LD B,D` (R200). -/
  | ld_B_D
  /-- `LD B,E` (R200). -/
  | ld_B_E
  /-- `LD B,H` (R200). -/
  | ld_B_H
  /-- `LD B,L` (R200). -/
  | ld_B_L
  /-- `LD B,(HL)` (R202). -/
  | ld_B_atHL
  /-- `LD B,A` (R200). -/
  | ld_B_A
  /-- `LD C,B` (R200). -/
  | ld_C_B
  /-- `LD C,C` (R200). -/
  | ld_C_C
  /-- `LD C,D` (R200). -/
  | ld_C_D
  /-- `LD C,E` (R200). -/
  | ld_C_E
  /-- `LD C,H` (R200). -/
  | ld_C_H
  /-- `LD C,L` (R200). -/
  | ld_C_L
  /-- `LD C,(HL)` (R202). -/
  | ld_C_atHL
  /-- `LD C,A` (R200). -/
  | ld_C_A
  /-- `LD D,B` (R200). -/
  | ld_D_B
  /-- `LD D,C` (R200). -/
  | ld_D_C
  /-- `LD D,D` (R200). -/
  | ld_D_D
  /-- `LD D,E` (R200). -/
  | ld_D_E
  /-- `LD D,H` (R200). -/
  | ld_D_H
  /-- `LD D,L` (R200). -/
  | ld_D_L
  /-- `LD D,(HL)` (R202). -/
  | ld_D_atHL
  /-- `LD D,A` (R200). -/
  | ld_D_A
  /-- `LD E,B` (R200). -/
  | ld_E_B
  /-- `LD E,C` (R200). -/
  | ld_E_C
  /-- `LD E,D` (R200). -/
  | ld_E_D
  /-- `LD E,E` (R200). -/
  | ld_E_E
  /-- `LD E,H` (R200). -/
  | ld_E_H
  /-- `LD E,L` (R200). -/
  | ld_E_L
  /-- `LD E,(HL)` (R202). -/
  | ld_E_atHL
  /-- `LD E,A` (R200). -/
  | ld_E_A
  /-- `LD H,B` (R200). -/
  | ld_H_B
  /-- `LD H,C` (R200). -/
  | ld_H_C
  /-- `LD H,D` (R200). -/
  | ld_H_D
  /-- `LD H,E` (R200). -/
  | ld_H_E
  /-- `LD H,H` (R200). -/
  | ld_H_H
  /-- `LD H,L` (R200). -/
  | ld_H_L
  /-- `LD H,(HL)` (R202). -/
  | ld_H_atHL
  /-- `LD H,A` (R200). -/
  | ld_H_A
  /-- `LD L,B` (R200). -/
  | ld_L_B
  /-- `LD L,C` (R200). -/
  | ld_L_C
  /-- `LD L,D` (R200). -/
  | ld_L_D
  /-- `LD L,E` (R200). -/
  | ld_L_E
  /-- `LD L,H` (R200). -/
  | ld_L_H
  /-- `LD L,L` (R200). -/
  | ld_L_L
  /-- `LD L,(HL)` (R202). -/
  | ld_L_atHL
  /-- `LD L,A` (R200). -/
  | ld_L_A
  /-- `LD (HL),B` (R203). -/
  | ld_atHL_B
  /-- `LD (HL),C` (R203). -/
  | ld_atHL_C
  /-- `LD (HL),D` (R203). -/
  | ld_atHL_D
  /-- `LD (HL),E` (R203). -/
  | ld_atHL_E
  /-- `LD (HL),H` (R203). -/
  | ld_atHL_H
  /-- `LD (HL),L` (R203). -/
  | ld_atHL_L
  /-- `LD (HL),A` (R203). -/
  | ld_atHL_A
  /-- `LD A,B` (R200). -/
  | ld_A_B
  /-- `LD A,C` (R200). -/
  | ld_A_C
  /-- `LD A,D` (R200). -/
  | ld_A_D
  /-- `LD A,E` (R200). -/
  | ld_A_E
  /-- `LD A,H` (R200). -/
  | ld_A_H
  /-- `LD A,L` (R200). -/
  | ld_A_L
  /-- `LD A,(HL)` (R202). -/
  | ld_A_atHL
  /-- `LD A,A` (R200). -/
  | ld_A_A
  /-- `CP B` (R261). -/
  | cp_B
  /-- `CP C` (R261). -/
  | cp_C
  /-- `CP D` (R261). -/
  | cp_D
  /-- `CP E` (R261). -/
  | cp_E
  /-- `CP H` (R261). -/
  | cp_H
  /-- `CP L` (R261). -/
  | cp_L
  /-- `CP (HL)` (R262). -/
  | cp_atHL
  /-- `CP A` (R261). -/
  | cp_A
  /-- `PUSH BC` (R311). -/
  | push_BC
  /-- `PREFIX CB` (R146). -/
  | prefix_CB
  /-- `PUSH DE` (R311). -/
  | push_DE
  /-- `LDH (n),A` (R215). -/
  | ldh_atN_A (n : Byte)
  /-- `LD (C),A` (R213). -/
  | ld_atC_A
  /-- `PUSH HL` (R311). -/
  | push_HL
  /-- `LD (nn),A` (R217). -/
  | ld_atNN_A (nn : Word)
  /-- `LDH A,(n)` (R216). -/
  | ldh_A_atN (n : Byte)
  /-- `LD A,(C)` (R214). -/
  | ld_A_atC
  /-- `PUSH AF` (R311). -/
  | push_AF
  /-- `LD SP,HL` (R253). -/
  | ld_SP_HL
  /-- `LD A,(nn)` (R218). -/
  | ld_A_atNN (nn : Word)
  /-- `CP n` (R263). -/
  | cp_n (n : Byte)
  /-- `RL B` (R291). -/
  | rl_B
  /-- `RL C` (R291). -/
  | rl_C
  /-- `RL D` (R291). -/
  | rl_D
  /-- `RL E` (R291). -/
  | rl_E
  /-- `RL H` (R291). -/
  | rl_H
  /-- `RL L` (R291). -/
  | rl_L
  /-- `RL (HL)` (R292). -/
  | rl_atHL
  /-- `RL A` (R291). -/
  | rl_A
  /-- `BIT 0,B` (R294). -/
  | bit_0_B
  /-- `BIT 0,C` (R294). -/
  | bit_0_C
  /-- `BIT 0,D` (R294). -/
  | bit_0_D
  /-- `BIT 0,E` (R294). -/
  | bit_0_E
  /-- `BIT 0,H` (R294). -/
  | bit_0_H
  /-- `BIT 0,L` (R294). -/
  | bit_0_L
  /-- `BIT 0,(HL)` (R295). -/
  | bit_0_atHL
  /-- `BIT 0,A` (R294). -/
  | bit_0_A
  /-- `BIT 1,B` (R294). -/
  | bit_1_B
  /-- `BIT 1,C` (R294). -/
  | bit_1_C
  /-- `BIT 1,D` (R294). -/
  | bit_1_D
  /-- `BIT 1,E` (R294). -/
  | bit_1_E
  /-- `BIT 1,H` (R294). -/
  | bit_1_H
  /-- `BIT 1,L` (R294). -/
  | bit_1_L
  /-- `BIT 1,(HL)` (R295). -/
  | bit_1_atHL
  /-- `BIT 1,A` (R294). -/
  | bit_1_A
  /-- `BIT 2,B` (R294). -/
  | bit_2_B
  /-- `BIT 2,C` (R294). -/
  | bit_2_C
  /-- `BIT 2,D` (R294). -/
  | bit_2_D
  /-- `BIT 2,E` (R294). -/
  | bit_2_E
  /-- `BIT 2,H` (R294). -/
  | bit_2_H
  /-- `BIT 2,L` (R294). -/
  | bit_2_L
  /-- `BIT 2,(HL)` (R295). -/
  | bit_2_atHL
  /-- `BIT 2,A` (R294). -/
  | bit_2_A
  /-- `BIT 3,B` (R294). -/
  | bit_3_B
  /-- `BIT 3,C` (R294). -/
  | bit_3_C
  /-- `BIT 3,D` (R294). -/
  | bit_3_D
  /-- `BIT 3,E` (R294). -/
  | bit_3_E
  /-- `BIT 3,H` (R294). -/
  | bit_3_H
  /-- `BIT 3,L` (R294). -/
  | bit_3_L
  /-- `BIT 3,(HL)` (R295). -/
  | bit_3_atHL
  /-- `BIT 3,A` (R294). -/
  | bit_3_A
  /-- `BIT 4,B` (R294). -/
  | bit_4_B
  /-- `BIT 4,C` (R294). -/
  | bit_4_C
  /-- `BIT 4,D` (R294). -/
  | bit_4_D
  /-- `BIT 4,E` (R294). -/
  | bit_4_E
  /-- `BIT 4,H` (R294). -/
  | bit_4_H
  /-- `BIT 4,L` (R294). -/
  | bit_4_L
  /-- `BIT 4,(HL)` (R295). -/
  | bit_4_atHL
  /-- `BIT 4,A` (R294). -/
  | bit_4_A
  /-- `BIT 5,B` (R294). -/
  | bit_5_B
  /-- `BIT 5,C` (R294). -/
  | bit_5_C
  /-- `BIT 5,D` (R294). -/
  | bit_5_D
  /-- `BIT 5,E` (R294). -/
  | bit_5_E
  /-- `BIT 5,H` (R294). -/
  | bit_5_H
  /-- `BIT 5,L` (R294). -/
  | bit_5_L
  /-- `BIT 5,(HL)` (R295). -/
  | bit_5_atHL
  /-- `BIT 5,A` (R294). -/
  | bit_5_A
  /-- `BIT 6,B` (R294). -/
  | bit_6_B
  /-- `BIT 6,C` (R294). -/
  | bit_6_C
  /-- `BIT 6,D` (R294). -/
  | bit_6_D
  /-- `BIT 6,E` (R294). -/
  | bit_6_E
  /-- `BIT 6,H` (R294). -/
  | bit_6_H
  /-- `BIT 6,L` (R294). -/
  | bit_6_L
  /-- `BIT 6,(HL)` (R295). -/
  | bit_6_atHL
  /-- `BIT 6,A` (R294). -/
  | bit_6_A
  /-- `BIT 7,B` (R294). -/
  | bit_7_B
  /-- `BIT 7,C` (R294). -/
  | bit_7_C
  /-- `BIT 7,D` (R294). -/
  | bit_7_D
  /-- `BIT 7,E` (R294). -/
  | bit_7_E
  /-- `BIT 7,H` (R294). -/
  | bit_7_H
  /-- `BIT 7,L` (R294). -/
  | bit_7_L
  /-- `BIT 7,(HL)` (R295). -/
  | bit_7_atHL
  /-- `BIT 7,A` (R294). -/
  | bit_7_A
  /-- A pair of an opcode byte and a CB flag that has no handler (R113): the 306 `UNIMPLEMENTED` rows. -/
  | unimplemented (opcode : Byte) (cb : Bool)
deriving DecidableEq, Repr

end Sys2Proof
end

