-- ==== Sys2Proof/Decode.lean ====
section
/-! DEFINITION. Decoding: the two opcode tables (30_encoding.md R110, R111), the decoder over bytes, the encoder, the
operand fields of an opcode byte (R102 to R108) with the families they select from, and the controller's dispatch from
an opcode byte to a handler (40_controller.md R142), which reads the fields and not the tables. -/

namespace Sys2Proof

/-! ## The opcode tables -/

/-- What a table holds for an opcode byte: nothing, an instruction, or an instruction that takes one or two immediate
bytes (R103). -/
inductive Row where
  | absent
  | plain (i : Instr)
  | imm8 (f : Byte → Instr)
  | imm16 (f : Word → Instr)

/-- The base table (R110), by the high digit of the opcode byte: its sixteen entries in the order of the low digit. -/
def baseRow : Nat → List Row
  | 0x0 =>
  [.plain .nop, .imm16 .ld_BC_nn, .plain .ld_atBC_A, .plain .inc_BC, .plain .inc_B, .plain .dec_B,
   .imm8 .ld_B_n, .absent, .imm16 .ld_atNN_SP, .absent, .plain .ld_A_atBC, .plain .dec_BC, .plain .inc_C,
   .plain .dec_C, .imm8 .ld_C_n, .absent]
  | 0x1 =>
  [.absent, .imm16 .ld_DE_nn, .plain .ld_atDE_A, .plain .inc_DE, .plain .inc_D, .plain .dec_D, .imm8 .ld_D_n,
   .absent, .absent, .absent, .plain .ld_A_atDE, .plain .dec_DE, .plain .inc_E, .plain .dec_E, .imm8 .ld_E_n,
   .absent]
  | 0x2 =>
  [.imm8 .jr_NZ_e, .imm16 .ld_HL_nn, .plain .ld_atHLinc_A, .plain .inc_HL, .plain .inc_H, .plain .dec_H,
   .imm8 .ld_H_n, .absent, .imm8 .jr_Z_e, .absent, .plain .ld_A_atHLinc, .plain .dec_HL, .plain .inc_L,
   .plain .dec_L, .imm8 .ld_L_n, .absent]
  | 0x3 =>
  [.imm8 .jr_NC_e, .imm16 .ld_SP_nn, .plain .ld_atHLdec_A, .plain .inc_SP, .plain .inc_atHL, .plain .dec_atHL,
   .imm8 .ld_atHL_n, .absent, .imm8 .jr_C_e, .absent, .plain .ld_A_atHLdec, .plain .dec_SP, .plain .inc_A,
   .plain .dec_A, .imm8 .ld_A_n, .absent]
  | 0x4 =>
  [.plain .ld_B_B, .plain .ld_B_C, .plain .ld_B_D, .plain .ld_B_E, .plain .ld_B_H, .plain .ld_B_L,
   .plain .ld_B_atHL, .plain .ld_B_A, .plain .ld_C_B, .plain .ld_C_C, .plain .ld_C_D, .plain .ld_C_E,
   .plain .ld_C_H, .plain .ld_C_L, .plain .ld_C_atHL, .plain .ld_C_A]
  | 0x5 =>
  [.plain .ld_D_B, .plain .ld_D_C, .plain .ld_D_D, .plain .ld_D_E, .plain .ld_D_H, .plain .ld_D_L,
   .plain .ld_D_atHL, .plain .ld_D_A, .plain .ld_E_B, .plain .ld_E_C, .plain .ld_E_D, .plain .ld_E_E,
   .plain .ld_E_H, .plain .ld_E_L, .plain .ld_E_atHL, .plain .ld_E_A]
  | 0x6 =>
  [.plain .ld_H_B, .plain .ld_H_C, .plain .ld_H_D, .plain .ld_H_E, .plain .ld_H_H, .plain .ld_H_L,
   .plain .ld_H_atHL, .plain .ld_H_A, .plain .ld_L_B, .plain .ld_L_C, .plain .ld_L_D, .plain .ld_L_E,
   .plain .ld_L_H, .plain .ld_L_L, .plain .ld_L_atHL, .plain .ld_L_A]
  | 0x7 =>
  [.plain .ld_atHL_B, .plain .ld_atHL_C, .plain .ld_atHL_D, .plain .ld_atHL_E, .plain .ld_atHL_H,
   .plain .ld_atHL_L, .absent, .plain .ld_atHL_A, .plain .ld_A_B, .plain .ld_A_C, .plain .ld_A_D,
   .plain .ld_A_E, .plain .ld_A_H, .plain .ld_A_L, .plain .ld_A_atHL, .plain .ld_A_A]
  | 0xB =>
  [.absent, .absent, .absent, .absent, .absent, .absent, .absent, .absent, .plain .cp_B, .plain .cp_C,
   .plain .cp_D, .plain .cp_E, .plain .cp_H, .plain .cp_L, .plain .cp_atHL, .plain .cp_A]
  | 0xC =>
  [.absent, .absent, .absent, .absent, .absent, .plain .push_BC, .absent, .absent, .absent, .absent, .absent,
   .plain .prefix_CB, .absent, .absent, .absent, .absent]
  | 0xD =>
  [.absent, .absent, .absent, .absent, .absent, .plain .push_DE, .absent, .absent, .absent, .absent, .absent,
   .absent, .absent, .absent, .absent, .absent]
  | 0xE =>
  [.imm8 .ldh_atN_A, .absent, .plain .ld_atC_A, .absent, .absent, .plain .push_HL, .absent, .absent, .absent,
   .absent, .imm16 .ld_atNN_A, .absent, .absent, .absent, .absent, .absent]
  | 0xF =>
  [.imm8 .ldh_A_atN, .absent, .plain .ld_A_atC, .absent, .absent, .plain .push_AF, .absent, .absent, .absent,
   .plain .ld_SP_HL, .imm16 .ld_A_atNN, .absent, .absent, .absent, .imm8 .cp_n, .absent]
  | _ => []

/-- The CB table (R111), by the high digit of the opcode byte: its sixteen entries in the order of the low digit. -/
def cbRow : Nat → List Row
  | 0x1 =>
  [.plain .rl_B, .plain .rl_C, .plain .rl_D, .plain .rl_E, .plain .rl_H, .plain .rl_L, .plain .rl_atHL,
   .plain .rl_A, .absent, .absent, .absent, .absent, .absent, .absent, .absent, .absent]
  | 0x4 =>
  [.plain .bit_0_B, .plain .bit_0_C, .plain .bit_0_D, .plain .bit_0_E, .plain .bit_0_H, .plain .bit_0_L,
   .plain .bit_0_atHL, .plain .bit_0_A, .plain .bit_1_B, .plain .bit_1_C, .plain .bit_1_D, .plain .bit_1_E,
   .plain .bit_1_H, .plain .bit_1_L, .plain .bit_1_atHL, .plain .bit_1_A]
  | 0x5 =>
  [.plain .bit_2_B, .plain .bit_2_C, .plain .bit_2_D, .plain .bit_2_E, .plain .bit_2_H, .plain .bit_2_L,
   .plain .bit_2_atHL, .plain .bit_2_A, .plain .bit_3_B, .plain .bit_3_C, .plain .bit_3_D, .plain .bit_3_E,
   .plain .bit_3_H, .plain .bit_3_L, .plain .bit_3_atHL, .plain .bit_3_A]
  | 0x6 =>
  [.plain .bit_4_B, .plain .bit_4_C, .plain .bit_4_D, .plain .bit_4_E, .plain .bit_4_H, .plain .bit_4_L,
   .plain .bit_4_atHL, .plain .bit_4_A, .plain .bit_5_B, .plain .bit_5_C, .plain .bit_5_D, .plain .bit_5_E,
   .plain .bit_5_H, .plain .bit_5_L, .plain .bit_5_atHL, .plain .bit_5_A]
  | 0x7 =>
  [.plain .bit_6_B, .plain .bit_6_C, .plain .bit_6_D, .plain .bit_6_E, .plain .bit_6_H, .plain .bit_6_L,
   .plain .bit_6_atHL, .plain .bit_6_A, .plain .bit_7_B, .plain .bit_7_C, .plain .bit_7_D, .plain .bit_7_E,
   .plain .bit_7_H, .plain .bit_7_L, .plain .bit_7_atHL, .plain .bit_7_A]
  | _ => []

/-- The table's entry for a pair of an opcode byte and the CB flag (R112, R142). -/
def tableEntry (cb : Bool) (opcode : Byte) : Row :=
  let row := if cb then cbRow (opcode.toNat / 16) else baseRow (opcode.toNat / 16)
  match row[opcode.toNat % 16]? with
  | some entry => entry
  | none => .absent

/-- The table's entry under a configured set `Implemented` (R6, R142): a pair outside the set has no handler. -/
def entryIn (m : Implemented) (cb : Bool) (opcode : Byte) : Row :=
  if m.has opcode cb then tableEntry cb opcode else .absent

/-! ## The decoder -/

/-- Why bytes are refused: there is no byte to decode, or an immediate byte is missing. Every opcode byte itself decodes
(R114). -/
inductive DecodeError where
  | noBytes
  | operandMissing
deriving DecidableEq, Repr

/-- One decode (R142): the opcode byte under the given CB flag, then its immediate bytes, low byte first (R109). It gives
the instruction and the bytes after it. -/
def decode (m : Implemented) (cb : Bool) : List Byte → Except DecodeError (Instr × List Byte)
  | [] => .error .noBytes
  | opcode :: rest =>
    match entryIn m cb opcode with
    | .absent => .ok (.unimplemented opcode cb, rest)
    | .plain i => .ok (i, rest)
    | .imm8 f =>
      match rest with
      | n :: rest' => .ok (f n, rest')
      | [] => .error .operandMissing
    | .imm16 f =>
      match rest with
      | lo :: hi :: rest' => .ok (f (join hi lo), rest')
      | _ => .error .operandMissing

/-- A whole instruction under a configured set: 0xCB and the byte after it are one instruction (R112, R146). The byte 0xCB
with nothing after it decodes to the prefix alone. -/
def decodeInstrIn (m : Implemented) (bytes : List Byte) : Except DecodeError (Instr × List Byte) :=
  match decode m false bytes with
  | .ok (.prefix_CB, op :: rest) => decode m true (op :: rest)
  | answer => answer

/-- A whole instruction under the default set (R100). -/
def decodeInstr (bytes : List Byte) : Except DecodeError (Instr × List Byte) := decodeInstrIn .default bytes

/-- The instruction of a table word: bit 0 of `w` is the least significant bit of the first byte, every bit from `nbits`
up is 0. The eight bits 0xCB are the table's `PREFIX CB` row, so there the prefix stands alone (notes/assumptions 19). -/
def decodeTableWord (nbits w : Nat) : Option Instr :=
  let v := w % 2 ^ nbits
  let bytes : List Byte := [BitVec.ofNat 8 v, BitVec.ofNat 8 (v / 256), BitVec.ofNat 8 (v / 65536)]
  match decodeInstr (if nbits ≤ 8 ∧ v = 0xCB then [0xCB] else bytes) with
  | .ok (i, _) => some i
  | .error _ => none

/-! ## The encoder -/

/-- Whether the instruction is one of the CB table (R111). -/
def Instr.isCb : Instr → Bool
  | .rl_B | .rl_C | .rl_D | .rl_E | .rl_H | .rl_L | .rl_atHL | .rl_A => true
  | .bit_0_B | .bit_0_C | .bit_0_D | .bit_0_E | .bit_0_H | .bit_0_L | .bit_0_atHL | .bit_0_A => true
  | .bit_1_B | .bit_1_C | .bit_1_D | .bit_1_E | .bit_1_H | .bit_1_L | .bit_1_atHL | .bit_1_A => true
  | .bit_2_B | .bit_2_C | .bit_2_D | .bit_2_E | .bit_2_H | .bit_2_L | .bit_2_atHL | .bit_2_A => true
  | .bit_3_B | .bit_3_C | .bit_3_D | .bit_3_E | .bit_3_H | .bit_3_L | .bit_3_atHL | .bit_3_A => true
  | .bit_4_B | .bit_4_C | .bit_4_D | .bit_4_E | .bit_4_H | .bit_4_L | .bit_4_atHL | .bit_4_A => true
  | .bit_5_B | .bit_5_C | .bit_5_D | .bit_5_E | .bit_5_H | .bit_5_L | .bit_5_atHL | .bit_5_A => true
  | .bit_6_B | .bit_6_C | .bit_6_D | .bit_6_E | .bit_6_H | .bit_6_L | .bit_6_atHL | .bit_6_A => true
  | .bit_7_B | .bit_7_C | .bit_7_D | .bit_7_E | .bit_7_H | .bit_7_L | .bit_7_atHL | .bit_7_A => true
  | .unimplemented _ cb => cb
  | _ => false

/-- The opcode byte of an instruction in its own table (R110, R111). -/
def Instr.opcode : Instr → Byte
  | .nop => 0x00
  | .ld_BC_nn _ => 0x01
  | .ld_atBC_A => 0x02
  | .inc_BC => 0x03
  | .inc_B => 0x04
  | .dec_B => 0x05
  | .ld_B_n _ => 0x06
  | .ld_atNN_SP _ => 0x08
  | .ld_A_atBC => 0x0A
  | .dec_BC => 0x0B
  | .inc_C => 0x0C
  | .dec_C => 0x0D
  | .ld_C_n _ => 0x0E
  | .ld_DE_nn _ => 0x11
  | .ld_atDE_A => 0x12
  | .inc_DE => 0x13
  | .inc_D => 0x14
  | .dec_D => 0x15
  | .ld_D_n _ => 0x16
  | .ld_A_atDE => 0x1A
  | .dec_DE => 0x1B
  | .inc_E => 0x1C
  | .dec_E => 0x1D
  | .ld_E_n _ => 0x1E
  | .jr_NZ_e _ => 0x20
  | .ld_HL_nn _ => 0x21
  | .ld_atHLinc_A => 0x22
  | .inc_HL => 0x23
  | .inc_H => 0x24
  | .dec_H => 0x25
  | .ld_H_n _ => 0x26
  | .jr_Z_e _ => 0x28
  | .ld_A_atHLinc => 0x2A
  | .dec_HL => 0x2B
  | .inc_L => 0x2C
  | .dec_L => 0x2D
  | .ld_L_n _ => 0x2E
  | .jr_NC_e _ => 0x30
  | .ld_SP_nn _ => 0x31
  | .ld_atHLdec_A => 0x32
  | .inc_SP => 0x33
  | .inc_atHL => 0x34
  | .dec_atHL => 0x35
  | .ld_atHL_n _ => 0x36
  | .jr_C_e _ => 0x38
  | .ld_A_atHLdec => 0x3A
  | .dec_SP => 0x3B
  | .inc_A => 0x3C
  | .dec_A => 0x3D
  | .ld_A_n _ => 0x3E
  | .ld_B_B => 0x40
  | .ld_B_C => 0x41
  | .ld_B_D => 0x42
  | .ld_B_E => 0x43
  | .ld_B_H => 0x44
  | .ld_B_L => 0x45
  | .ld_B_atHL => 0x46
  | .ld_B_A => 0x47
  | .ld_C_B => 0x48
  | .ld_C_C => 0x49
  | .ld_C_D => 0x4A
  | .ld_C_E => 0x4B
  | .ld_C_H => 0x4C
  | .ld_C_L => 0x4D
  | .ld_C_atHL => 0x4E
  | .ld_C_A => 0x4F
  | .ld_D_B => 0x50
  | .ld_D_C => 0x51
  | .ld_D_D => 0x52
  | .ld_D_E => 0x53
  | .ld_D_H => 0x54
  | .ld_D_L => 0x55
  | .ld_D_atHL => 0x56
  | .ld_D_A => 0x57
  | .ld_E_B => 0x58
  | .ld_E_C => 0x59
  | .ld_E_D => 0x5A
  | .ld_E_E => 0x5B
  | .ld_E_H => 0x5C
  | .ld_E_L => 0x5D
  | .ld_E_atHL => 0x5E
  | .ld_E_A => 0x5F
  | .ld_H_B => 0x60
  | .ld_H_C => 0x61
  | .ld_H_D => 0x62
  | .ld_H_E => 0x63
  | .ld_H_H => 0x64
  | .ld_H_L => 0x65
  | .ld_H_atHL => 0x66
  | .ld_H_A => 0x67
  | .ld_L_B => 0x68
  | .ld_L_C => 0x69
  | .ld_L_D => 0x6A
  | .ld_L_E => 0x6B
  | .ld_L_H => 0x6C
  | .ld_L_L => 0x6D
  | .ld_L_atHL => 0x6E
  | .ld_L_A => 0x6F
  | .ld_atHL_B => 0x70
  | .ld_atHL_C => 0x71
  | .ld_atHL_D => 0x72
  | .ld_atHL_E => 0x73
  | .ld_atHL_H => 0x74
  | .ld_atHL_L => 0x75
  | .ld_atHL_A => 0x77
  | .ld_A_B => 0x78
  | .ld_A_C => 0x79
  | .ld_A_D => 0x7A
  | .ld_A_E => 0x7B
  | .ld_A_H => 0x7C
  | .ld_A_L => 0x7D
  | .ld_A_atHL => 0x7E
  | .ld_A_A => 0x7F
  | .cp_B => 0xB8
  | .cp_C => 0xB9
  | .cp_D => 0xBA
  | .cp_E => 0xBB
  | .cp_H => 0xBC
  | .cp_L => 0xBD
  | .cp_atHL => 0xBE
  | .cp_A => 0xBF
  | .push_BC => 0xC5
  | .prefix_CB => 0xCB
  | .push_DE => 0xD5
  | .ldh_atN_A _ => 0xE0
  | .ld_atC_A => 0xE2
  | .push_HL => 0xE5
  | .ld_atNN_A _ => 0xEA
  | .ldh_A_atN _ => 0xF0
  | .ld_A_atC => 0xF2
  | .push_AF => 0xF5
  | .ld_SP_HL => 0xF9
  | .ld_A_atNN _ => 0xFA
  | .cp_n _ => 0xFE
  | .rl_B => 0x10
  | .rl_C => 0x11
  | .rl_D => 0x12
  | .rl_E => 0x13
  | .rl_H => 0x14
  | .rl_L => 0x15
  | .rl_atHL => 0x16
  | .rl_A => 0x17
  | .bit_0_B => 0x40
  | .bit_0_C => 0x41
  | .bit_0_D => 0x42
  | .bit_0_E => 0x43
  | .bit_0_H => 0x44
  | .bit_0_L => 0x45
  | .bit_0_atHL => 0x46
  | .bit_0_A => 0x47
  | .bit_1_B => 0x48
  | .bit_1_C => 0x49
  | .bit_1_D => 0x4A
  | .bit_1_E => 0x4B
  | .bit_1_H => 0x4C
  | .bit_1_L => 0x4D
  | .bit_1_atHL => 0x4E
  | .bit_1_A => 0x4F
  | .bit_2_B => 0x50
  | .bit_2_C => 0x51
  | .bit_2_D => 0x52
  | .bit_2_E => 0x53
  | .bit_2_H => 0x54
  | .bit_2_L => 0x55
  | .bit_2_atHL => 0x56
  | .bit_2_A => 0x57
  | .bit_3_B => 0x58
  | .bit_3_C => 0x59
  | .bit_3_D => 0x5A
  | .bit_3_E => 0x5B
  | .bit_3_H => 0x5C
  | .bit_3_L => 0x5D
  | .bit_3_atHL => 0x5E
  | .bit_3_A => 0x5F
  | .bit_4_B => 0x60
  | .bit_4_C => 0x61
  | .bit_4_D => 0x62
  | .bit_4_E => 0x63
  | .bit_4_H => 0x64
  | .bit_4_L => 0x65
  | .bit_4_atHL => 0x66
  | .bit_4_A => 0x67
  | .bit_5_B => 0x68
  | .bit_5_C => 0x69
  | .bit_5_D => 0x6A
  | .bit_5_E => 0x6B
  | .bit_5_H => 0x6C
  | .bit_5_L => 0x6D
  | .bit_5_atHL => 0x6E
  | .bit_5_A => 0x6F
  | .bit_6_B => 0x70
  | .bit_6_C => 0x71
  | .bit_6_D => 0x72
  | .bit_6_E => 0x73
  | .bit_6_H => 0x74
  | .bit_6_L => 0x75
  | .bit_6_atHL => 0x76
  | .bit_6_A => 0x77
  | .bit_7_B => 0x78
  | .bit_7_C => 0x79
  | .bit_7_D => 0x7A
  | .bit_7_E => 0x7B
  | .bit_7_H => 0x7C
  | .bit_7_L => 0x7D
  | .bit_7_atHL => 0x7E
  | .bit_7_A => 0x7F
  | .unimplemented opcode _ => opcode

/-- The immediate bytes of an instruction in the order they stand in memory (R109). -/
def Instr.immediates : Instr → List Byte
  | .ld_BC_nn nn => [lo8 nn, hi8 nn]
  | .ld_B_n n => [n]
  | .ld_atNN_SP nn => [lo8 nn, hi8 nn]
  | .ld_C_n n => [n]
  | .ld_DE_nn nn => [lo8 nn, hi8 nn]
  | .ld_D_n n => [n]
  | .ld_E_n n => [n]
  | .jr_NZ_e e => [e]
  | .ld_HL_nn nn => [lo8 nn, hi8 nn]
  | .ld_H_n n => [n]
  | .jr_Z_e e => [e]
  | .ld_L_n n => [n]
  | .jr_NC_e e => [e]
  | .ld_SP_nn nn => [lo8 nn, hi8 nn]
  | .ld_atHL_n n => [n]
  | .jr_C_e e => [e]
  | .ld_A_n n => [n]
  | .ldh_atN_A n => [n]
  | .ld_atNN_A nn => [lo8 nn, hi8 nn]
  | .ldh_A_atN n => [n]
  | .ld_A_atNN nn => [lo8 nn, hi8 nn]
  | .cp_n n => [n]
  | _ => []

/-- The bytes of an instruction, lowest address first (R101). -/
def encode (i : Instr) : List Byte :=
  (if i.isCb then [0xCB] else []) ++ i.opcode :: i.immediates

/-! ## The operand fields and the families they select from -/

/-- `r8`: the number of a register in a `ddd` or `sss` field (R104). -/
def Reg8.field : Reg8 → BitVec 3
  | .b => 0
  | .c => 1
  | .d => 2
  | .e => 3
  | .h => 4
  | .l => 5
  | .a => 7

/-- The operand an 8-bit field selects (R104): value 6 is the memory operand `(HL)`. -/
def kindOfField (v : BitVec 3) : Kind8 :=
  match v.toNat with
  | 0 => .reg .b
  | 1 => .reg .c
  | 2 => .reg .d
  | 3 => .reg .e
  | 4 => .reg .h
  | 5 => .reg .l
  | 6 => .ind .hl
  | _ => .reg .a

/-- `r16`: the register a `pp` field selects in LD rr,nn, INC rr and DEC rr (R105). -/
def r16 (pp : BitVec 2) : Reg16 :=
  match pp.toNat with
  | 0 => .bc
  | 1 => .de
  | 2 => .hl
  | _ => .sp

/-- `r16stk`: the pair a `pp` field selects in PUSH (R106). -/
def r16stk (pp : BitVec 2) : Reg16 :=
  match pp.toNat with
  | 0 => .bc
  | 1 => .de
  | 2 => .hl
  | _ => .af

/-- The number of a condition in a `cc` field (R107). -/
def Cond.field : Cond → BitVec 2
  | .nz => 0
  | .z => 1
  | .nc => 2
  | .c => 3

/-- The condition a `cc` field selects (R107). -/
def condOfField (v : BitVec 2) : Cond :=
  match v.toNat with
  | 0 => .nz
  | 1 => .z
  | 2 => .nc
  | _ => .c

/-- `LD r,r'` (R200), by destination and source. -/
def ldRR : Reg8 → Reg8 → Instr
  | .b, .b => .ld_B_B
  | .b, .c => .ld_B_C
  | .b, .d => .ld_B_D
  | .b, .e => .ld_B_E
  | .b, .h => .ld_B_H
  | .b, .l => .ld_B_L
  | .b, .a => .ld_B_A
  | .c, .b => .ld_C_B
  | .c, .c => .ld_C_C
  | .c, .d => .ld_C_D
  | .c, .e => .ld_C_E
  | .c, .h => .ld_C_H
  | .c, .l => .ld_C_L
  | .c, .a => .ld_C_A
  | .d, .b => .ld_D_B
  | .d, .c => .ld_D_C
  | .d, .d => .ld_D_D
  | .d, .e => .ld_D_E
  | .d, .h => .ld_D_H
  | .d, .l => .ld_D_L
  | .d, .a => .ld_D_A
  | .e, .b => .ld_E_B
  | .e, .c => .ld_E_C
  | .e, .d => .ld_E_D
  | .e, .e => .ld_E_E
  | .e, .h => .ld_E_H
  | .e, .l => .ld_E_L
  | .e, .a => .ld_E_A
  | .h, .b => .ld_H_B
  | .h, .c => .ld_H_C
  | .h, .d => .ld_H_D
  | .h, .e => .ld_H_E
  | .h, .h => .ld_H_H
  | .h, .l => .ld_H_L
  | .h, .a => .ld_H_A
  | .l, .b => .ld_L_B
  | .l, .c => .ld_L_C
  | .l, .d => .ld_L_D
  | .l, .e => .ld_L_E
  | .l, .h => .ld_L_H
  | .l, .l => .ld_L_L
  | .l, .a => .ld_L_A
  | .a, .b => .ld_A_B
  | .a, .c => .ld_A_C
  | .a, .d => .ld_A_D
  | .a, .e => .ld_A_E
  | .a, .h => .ld_A_H
  | .a, .l => .ld_A_L
  | .a, .a => .ld_A_A

/-- `LD r,n` (R201). -/
def ldRN : Reg8 → Byte → Instr
  | .b, n => .ld_B_n n
  | .c, n => .ld_C_n n
  | .d, n => .ld_D_n n
  | .e, n => .ld_E_n n
  | .h, n => .ld_H_n n
  | .l, n => .ld_L_n n
  | .a, n => .ld_A_n n

/-- `LD r,(HL)` (R202). -/
def ldRAtHL : Reg8 → Instr
  | .b => .ld_B_atHL
  | .c => .ld_C_atHL
  | .d => .ld_D_atHL
  | .e => .ld_E_atHL
  | .h => .ld_H_atHL
  | .l => .ld_L_atHL
  | .a => .ld_A_atHL

/-- `LD (HL),r` (R203). -/
def ldAtHLR : Reg8 → Instr
  | .b => .ld_atHL_B
  | .c => .ld_atHL_C
  | .d => .ld_atHL_D
  | .e => .ld_atHL_E
  | .h => .ld_atHL_H
  | .l => .ld_atHL_L
  | .a => .ld_atHL_A

/-- `CP r` (R261). -/
def cpR : Reg8 → Instr
  | .b => .cp_B
  | .c => .cp_C
  | .d => .cp_D
  | .e => .cp_E
  | .h => .cp_H
  | .l => .cp_L
  | .a => .cp_A

/-- `INC r` (R272). -/
def incR : Reg8 → Instr
  | .b => .inc_B
  | .c => .inc_C
  | .d => .inc_D
  | .e => .inc_E
  | .h => .inc_H
  | .l => .inc_L
  | .a => .inc_A

/-- `DEC r` (R273). -/
def decR : Reg8 → Instr
  | .b => .dec_B
  | .c => .dec_C
  | .d => .dec_D
  | .e => .dec_E
  | .h => .dec_H
  | .l => .dec_L
  | .a => .dec_A

/-- `RL r` (R291). -/
def rlR : Reg8 → Instr
  | .b => .rl_B
  | .c => .rl_C
  | .d => .rl_D
  | .e => .rl_E
  | .h => .rl_H
  | .l => .rl_L
  | .a => .rl_A

/-- `JR cc,e` (R321). -/
def jrCc : Cond → Byte → Instr
  | .nz, e => .jr_NZ_e e
  | .z, e => .jr_Z_e e
  | .nc, e => .jr_NC_e e
  | .c, e => .jr_C_e e

/-- `LD rr,nn` (R251), by its `pp` field. -/
def ldRrNn (pp : BitVec 2) (nn : Word) : Instr :=
  match pp.toNat with
  | 0 => .ld_BC_nn nn
  | 1 => .ld_DE_nn nn
  | 2 => .ld_HL_nn nn
  | _ => .ld_SP_nn nn

/-- `INC rr` (R276), by its `pp` field. -/
def incRr (pp : BitVec 2) : Instr :=
  match pp.toNat with
  | 0 => .inc_BC
  | 1 => .inc_DE
  | 2 => .inc_HL
  | _ => .inc_SP

/-- `DEC rr` (R277), by its `pp` field. -/
def decRr (pp : BitVec 2) : Instr :=
  match pp.toNat with
  | 0 => .dec_BC
  | 1 => .dec_DE
  | 2 => .dec_HL
  | _ => .dec_SP

/-- `PUSH rr` (R311), by its `pp` field. -/
def pushRr (pp : BitVec 2) : Instr :=
  match pp.toNat with
  | 0 => .push_BC
  | 1 => .push_DE
  | 2 => .push_HL
  | _ => .push_AF

/-- `BIT b,r` (R294). -/
def bitBR (b : BitVec 3) (r : Reg8) : Instr :=
  match b.toNat, r with
  | 0, .b => .bit_0_B
  | 0, .c => .bit_0_C
  | 0, .d => .bit_0_D
  | 0, .e => .bit_0_E
  | 0, .h => .bit_0_H
  | 0, .l => .bit_0_L
  | 0, .a => .bit_0_A
  | 1, .b => .bit_1_B
  | 1, .c => .bit_1_C
  | 1, .d => .bit_1_D
  | 1, .e => .bit_1_E
  | 1, .h => .bit_1_H
  | 1, .l => .bit_1_L
  | 1, .a => .bit_1_A
  | 2, .b => .bit_2_B
  | 2, .c => .bit_2_C
  | 2, .d => .bit_2_D
  | 2, .e => .bit_2_E
  | 2, .h => .bit_2_H
  | 2, .l => .bit_2_L
  | 2, .a => .bit_2_A
  | 3, .b => .bit_3_B
  | 3, .c => .bit_3_C
  | 3, .d => .bit_3_D
  | 3, .e => .bit_3_E
  | 3, .h => .bit_3_H
  | 3, .l => .bit_3_L
  | 3, .a => .bit_3_A
  | 4, .b => .bit_4_B
  | 4, .c => .bit_4_C
  | 4, .d => .bit_4_D
  | 4, .e => .bit_4_E
  | 4, .h => .bit_4_H
  | 4, .l => .bit_4_L
  | 4, .a => .bit_4_A
  | 5, .b => .bit_5_B
  | 5, .c => .bit_5_C
  | 5, .d => .bit_5_D
  | 5, .e => .bit_5_E
  | 5, .h => .bit_5_H
  | 5, .l => .bit_5_L
  | 5, .a => .bit_5_A
  | 6, .b => .bit_6_B
  | 6, .c => .bit_6_C
  | 6, .d => .bit_6_D
  | 6, .e => .bit_6_E
  | 6, .h => .bit_6_H
  | 6, .l => .bit_6_L
  | 6, .a => .bit_6_A
  | _, .b => .bit_7_B
  | _, .c => .bit_7_C
  | _, .d => .bit_7_D
  | _, .e => .bit_7_E
  | _, .h => .bit_7_H
  | _, .l => .bit_7_L
  | _, .a => .bit_7_A

/-- `BIT b,(HL)` (R295). -/
def bitBAtHL (b : BitVec 3) : Instr :=
  match b.toNat with
  | 0 => .bit_0_atHL
  | 1 => .bit_1_atHL
  | 2 => .bit_2_atHL
  | 3 => .bit_3_atHL
  | 4 => .bit_4_atHL
  | 5 => .bit_5_atHL
  | 6 => .bit_6_atHL
  | _ => .bit_7_atHL

/-! ## The controller's dispatch -/

/-- The handler of a CB-table opcode byte, by its fields (R111, R103 formats `CB_RL` and `CB_BIT`). -/
def cbHandler (op : Byte) : Option Handler :=
  let y := op.extractLsb' 3 3
  let k := kindOfField (op.extractLsb' 0 3)
  match (op.extractLsb' 6 2).toNat with
  | 0 => if y = 2 then some (.rl k) else none
  | 1 => some (.bit y k)
  | _ => none

/-- The handler of a base-table opcode byte with `x = op[7:6] = 0`, by its fields (R110, R103). -/
def baseHandler0 (op : Byte) : Option Handler :=
  let y := op.extractLsb' 3 3
  let p := op.extractLsb' 4 2
  let q := op.getLsbD 3
  match (op.extractLsb' 0 3).toNat with
  | 0 =>
    if y = 0 then some .nop
    else if y = 1 then some (.ld16 .direct16 (.reg16 .sp))
    else if op.getLsbD 5 then some (.jr (condOfField (op.extractLsb' 3 2)))
    else none
  | 1 => if q then none else some (.ld16 (.reg16 (r16 p)) .imm16)
  | 2 =>
    let m : Kind8 :=
      match p.toNat with
      | 0 => .ind .bc
      | 1 => .ind .de
      | 2 => .indInc
      | _ => .indDec
    some (if q then .ld8 (.reg .a) m else .ld8 m (.reg .a))
  | 3 => some (if q then .dec16 (r16 p) else .inc16 (r16 p))
  | 4 => some (.inc (kindOfField y))
  | 5 => some (.dec (kindOfField y))
  | 6 => some (.ld8 (kindOfField y) .imm8)
  | _ => none

/-- The handler of a base-table opcode byte with `x = 3`: the PUSH group by its field, the others one by one (R110). -/
def baseHandler3 (op : Byte) : Option Handler :=
  if (op.extractLsb' 0 4).toNat = 5 then some (.push (r16stk (op.extractLsb' 4 2)))
  else
    match op.toNat with
    | 0xCB => some .prefixCb
    | 0xE0 => some (.ld8 .direct8High (.reg .a))
    | 0xE2 => some (.ld8 .highC (.reg .a))
    | 0xEA => some (.ld8 .direct8Abs (.reg .a))
    | 0xF0 => some (.ld8 (.reg .a) .direct8High)
    | 0xF2 => some (.ld8 (.reg .a) .highC)
    | 0xF9 => some (.ld16 (.reg16 .sp) (.reg16 .hl))
    | 0xFA => some (.ld8 (.reg .a) .direct8Abs)
    | 0xFE => some (.cp .imm8)
    | _ => none

/-- The handler of a pair that R110 or R111 gives, or none. -/
def handlerOf (cb : Bool) (op : Byte) : Option Handler :=
  if cb then cbHandler op
  else
    match (op.extractLsb' 6 2).toNat with
    | 0 => baseHandler0 op
    | 1 => if op = 0x76 then none else some (.ld8 (kindOfField (op.extractLsb' 3 3)) (kindOfField (op.extractLsb' 0 3)))
    | 2 => if op.extractLsb' 3 3 = 7 then some (.cp (kindOfField (op.extractLsb' 0 3))) else none
    | _ => baseHandler3 op

/-- R142, "dispatch on (opcode, CB-flag) to the matching instruction handler": the handler of a pair in `Implemented`, or
none. -/
def dispatch (m : Implemented) (cb : Bool) (op : Byte) : Option Handler :=
  if m.has op cb then handlerOf cb op else none

end Sys2Proof
end

