-- ==== Sys2Proof/Machine/Flags.lean ====
section
/-! DEFINITION. The flag register and every flag computation of the specification: the predicates and setters
(10_state.md R25 to R27), CP (45_cp.md R260), INC and DEC (46_incdec.md R270, R271), RL and BIT (47_rl_bit.md R290,
R293), and the conditions of JR (49_jr.md R320). Each takes the flag register and gives it back with the flags the rule
writes, every other bit kept. -/

namespace Sys2Proof.Machine

/-- The four flags (R24, R25): zero, subtract, half-carry, carry. -/
inductive Flag where
  | z | n | h | c
deriving DecidableEq, Repr

/-- The bit of F a flag stands in (R25, decision D2). -/
def Flag.pos : Flag → Nat
  | .z => 7
  | .n => 6
  | .h => 5
  | .c => 4

/-- A flag predicate (R26). -/
def getFlag (fl : Flag) (f : Byte) : Bool := f.getLsbD fl.pos

/-- A flag setter: one bit of F to a value, every other bit kept (R27). -/
def setFlag (fl : Flag) (v : Bool) (f : Byte) : Byte :=
  if v then f ||| (1#8 <<< fl.pos) else f &&& ~~~(1#8 <<< fl.pos)

/-- `CP_flags(a, v)` (R260): Z of the wrapping difference, N set, Hf and Cf by unsigned comparison. -/
def cpFlags (a v : Byte) (f : Byte) : Byte :=
  setFlag .c (decide (a.toNat < v.toNat))
    (setFlag .h (decide ((nibble a).toNat < (nibble v).toNat))
      (setFlag .n true (setFlag .z (decide (a - v = 0)) f)))

/-- `INC8(v)` (R270): the result and the flags; Cf is kept. -/
def inc8 (v : Byte) (f : Byte) : Byte × Byte :=
  let res := v + 1
  (res, setFlag .h (decide (nibble v = 0xF)) (setFlag .n false (setFlag .z (decide (res = 0)) f)))

/-- `DEC8(v)` (R271): the result and the flags; Cf is kept. -/
def dec8 (v : Byte) (f : Byte) : Byte × Byte :=
  let res := v - 1
  (res, setFlag .h (decide (nibble v = 0x0)) (setFlag .n true (setFlag .z (decide (res = 0)) f)))

/-- `RL8(v)` (R290): rotate the nine bits `{Cf, v}` left by one; all four flags are written. -/
def rl8 (v : Byte) (f : Byte) : Byte × Byte :=
  let res := (v <<< 1) ||| (if getFlag .c f then 1 else 0)
  (res, setFlag .c (v.getLsbD 7) (setFlag .h false (setFlag .n false (setFlag .z (decide (res = 0)) f))))

/-- `BIT_flags(b, v)` (R293): Z is the complement of the tested bit, N clear, Hf set; Cf is kept. -/
def bitFlags (b : BitVec 3) (v : Byte) (f : Byte) : Byte :=
  setFlag .h true (setFlag .n false (setFlag .z (!v.getLsbD b.toNat) f))

/-- `cond(cc)` (R320). -/
def condHolds (cc : Cond) (f : Byte) : Bool :=
  match cc with
  | .nz => !getFlag .z f
  | .z => getFlag .z f
  | .nc => !getFlag .c f
  | .c => getFlag .c f

end Sys2Proof.Machine
end

