-- ==== Sys2Proof/Machine/State.lean ====
section
/-! DEFINITION. The state of the machine as plain data: the register file and the execution context of the core
(10_state.md), the environment behind the bus (20_memory.md), the bus events of the instruction (R79), the faults and
refusals, and the state after reset (R43, R360, R70). -/

namespace Sys2Proof.Machine

/-! ## The environment behind the bus -/

/-- Memory: the listed cells of the 2^16-byte space (R41), address strictly rising, none equal to what an unlisted
address reads as (Machine/Memory.lean). -/
abbrev Memory := List Host.Cell

/-- The environment (R19, R60): what answers the bus. It belongs to no register of the core. -/
structure Env where
  /-- The environment's parameters (R6); no step changes them. -/
  cfg : Config
  /-- The boot-enable latch (R68, R70). -/
  bootEn : Bool
  /-- Working RAM and high RAM (R70); every cell under `FlatBus` (R71). -/
  mem : Memory
  /-- The state of an external environment (R61), coded as a number; no other environment reads it. -/
  ext : Nat
deriving DecidableEq, Repr

/-- A bus event (R12, R79): one byte read or written at an address. -/
inductive BusEvent where
  | rd (addr : Addr) (value : Byte)
  | wr (addr : Addr) (value : Byte)
deriving DecidableEq, Repr

/-! ## The execution context -/

/-- The controller's phase (R35). -/
inductive Phase where
  | fetch
  | decode
  | execute
  | faulted
deriving DecidableEq, Repr

/-- The two failure kinds (60_exceptions.md R330). -/
inductive FaultKind where
  | unimplementedOpcode
  | protocolMisuse
deriving DecidableEq, Repr

/-- The fault record (R38). -/
structure FaultRecord where
  kind : FaultKind
  /-- The latched opcode byte. -/
  opcode : Byte
  /-- The CB flag at the fault. -/
  cb : Bool
  /-- The address the latched opcode byte was read from. -/
  addr : Addr
deriving DecidableEq, Repr

/-! ## The machine -/

/-- The whole machine (R44): the core's registers, its execution context, the environment, and the bus events. -/
structure State where
  /-- The seven data registers (R20). -/
  a : Byte
  b : Byte
  c : Byte
  d : Byte
  e : Byte
  h : Byte
  l : Byte
  /-- The flag register: Z, N, Hf, Cf in bits 7 to 4, bits 3 to 0 zero (R24, R25). -/
  f : Byte
  /-- The program counter (R29). -/
  pc : Addr
  /-- The stack pointer (R31). -/
  sp : Addr
  /-- The opcode byte last latched (R34). -/
  opcode : Byte
  /-- The CB-prefix flag (R34). -/
  cb : Bool
  /-- The address the latched opcode byte was read from (R141, R146). -/
  fetchAddr : Addr
  /-- The controller's phase (R35). -/
  phase : Phase
  /-- The handler that is running (R34). -/
  handler : Handler
  /-- The index of the handler's next stage (R34: "small integer"), counted in the stages of `handlerStages`; the numbering and
  the type are the model's (DESIGN CHOICE, notes/assumptions 22). -/
  stage : Nat
  /-- A byte read so far (R34). -/
  scratch8 : Byte
  /-- A 16-bit value read or assembled so far (R34). -/
  scratch16 : Word
  /-- The fault record, present only in phase `faulted` (R34, R38). -/
  fault : Option FaultRecord
  /-- The core's parameters (R6); no step changes them. -/
  cfg : CoreConfig
  /-- The environment behind the bus (R41). -/
  env : Env
  /-- The bus events of the current or last instruction, oldest first (R79): the model's own record of what the core
  does on the bus. No meaning reads it. -/
  bus : List BusEvent
deriving DecidableEq, Repr

/-- Why the machine stops. Each carries the state the machine stops in. -/
inductive Fault where
  /-- R331: Decode found no handler for the latched pair. Raised by the meaning of `unimplemented`, so by a step that
  fetches such a pair. `faulted` is the state R335 leaves: its phase is `faulted`, its record names the pair and its
  address. Safe: the hardware stops there too. -/
  | unimplementedOpcode (faulted : State)
  /-- R332: a write to an immediate operand. Raised only by the write operator of an immediate (R165); no instruction
  has an immediate destination, so no step raises it. Safe: the hardware stops there too. -/
  | protocolMisuse (faulted : State)
  /-- R144, R145, R336: a step was asked of a core that has faulted already, "no later step exists". Raised by `step` in
  phase `faulted`. Safe: the hardware makes no step there. -/
  | alreadyFaulted (faulted : State)
deriving DecidableEq, Repr

/-- Why the model has no meaning to give. -/
inductive Refusal where
  /-- An instruction of the opcode table that has no meaning yet. Raised by no arm of `exec`: every row has its meaning.
  Safe: nothing can be proved about what such an instruction does. -/
  | notModelled (mnemonic : String)
  /-- "`refuse` a `RefBus` configuration without" `BootRom` (93_implementation_defined.md U8): the configuration is not
  accepted, so no instruction runs. Raised by `step`. Safe: nothing can be proved about what such a machine does. -/
  | bootRomMissing
deriving DecidableEq, Repr

/-! ## Reset -/

/-- The environment after its own reset (R70): the latch set, no cell listed. What an unlisted cell reads as is
`Memory.unwritten`. -/
def Env.reset (cfg : Config) : Env where
  cfg := cfg
  bootEn := true
  mem := []
  ext := 0

/-- The core after construction (R43, R360), for any `RegInit`, any core configuration and any environment: PC = 0, phase
`fetch`, nothing in flight, no fault, F[3:0] zero. -/
def State.resetWith (r : RegInit) (cfg : CoreConfig) (env : Env) : State where
  a := r.a
  b := r.b
  c := r.c
  d := r.d
  e := r.e
  h := r.h
  l := r.l
  f := r.flags ++ 0#4
  pc := 0
  sp := r.sp
  opcode := 0
  cb := false
  fetchAddr := 0
  phase := .fetch
  handler := .idle
  stage := 0
  scratch8 := 0
  scratch16 := 0
  fault := none
  cfg := cfg
  env := env
  bus := []

/-- The machine right after reset: every parameter at its default (R6, R43, R70). `BootRom` has none and must be
supplied. -/
def State.reset : State := State.resetWith RegInit.zero CoreConfig.default (Env.reset Config.default)

end Sys2Proof.Machine
end

