-- ==== Sys2Proof/Machine/Memory.lean ====
section
/-! DEFINITION. Memory as one list of cells in one canonical form: what an unlisted address reads as, reading a cell,
storing to a cell, and the form itself. -/

namespace Sys2Proof.Machine

/-- Whether an address lies in working RAM or high RAM (20_memory.md R67). -/
def isRam (a : Nat) : Bool :=
  (decide (0xC000 ≤ a) && decide (a ≤ 0xFDFF)) || (decide (0xFF80 ≤ a) && decide (a ≤ 0xFFFE))

/-- What an unlisted address reads as. The specification leaves the contents of RAM after reset open (U7). DESIGN CHOICE:
0x00 in RAM, and 0xFF in the cells that `FlatBus` has beside it (notes/assumptions 3); unsafe. A `BootRom` lists no byte
that is 0xFF. -/
def Memory.unwritten (a : Nat) : Byte := if isRam a then 0x00 else 0xFF

/-- The byte of a cell. -/
def Memory.get : Memory → Nat → Byte
  | [], a => Memory.unwritten a
  | (k, w) :: rest, a => if a = k then w else Memory.get rest a

/-- Store a byte in a cell, keeping the canonical form: the value an unlisted cell reads as is not listed. -/
def Memory.set : Memory → Nat → Byte → Memory
  | [], a, v => if v = Memory.unwritten a then [] else [(a, v)]
  | (k, w) :: rest, a, v =>
    if a < k then (if v = Memory.unwritten a then (k, w) :: rest else (a, v) :: (k, w) :: rest)
    else if a = k then (if v = Memory.unwritten a then rest else (a, v) :: rest)
    else (k, w) :: Memory.set rest a v

/-- Whether a list of cells is canonical above a bound: addresses at or above it, strictly rising, below 2^16, no cell
equal to what an unlisted address reads as. -/
def Memory.wfFrom : Nat → Memory → Bool
  | _, [] => true
  | lo, (k, w) :: rest =>
    decide (lo ≤ k) && decide (k < 0x10000) && decide (w ≠ Memory.unwritten k) && Memory.wfFrom (k + 1) rest

/-- The canonical form. -/
def Memory.wf (m : Memory) : Bool := Memory.wfFrom 0 m

end Sys2Proof.Machine
end

