-- ==== Sys2Proof/Machine/Bus.lean ====
section
/-! DEFINITION. The bus contract (20_memory.md R60 to R63) and the environments that honour it: `RefBus` (R67 to R70),
`FlatBus` (R71), and any other, whose `read` and `write` are free values (R61, R62). -/

namespace Sys2Proof.Machine

/-- The cell of working RAM an address 0xC000 to 0xFDFF selects (R70): the address itself, or, with `WramMirror`,
0xC000 plus its low 13 bits, so that 0xE000 to 0xFDFF aliases 0xC000 to 0xDDFF. -/
def wramCell (cfg : Config) (a : Nat) : Nat :=
  if cfg.wramMirror then 0xC000 + (a - 0xC000) % 0x2000 else a

/-- The RAM cell that backs an address for reading and writing, if any: working RAM, high RAM, or any cell of `FlatBus`.
Nothing is known of the cells of an external environment. -/
def Env.ramCell (e : Env) (a : Addr) : Option Nat :=
  match e.cfg.bus with
  | .external => none
  | .flat => some a.toNat
  | .ref =>
    if 0xC000 ≤ a.toNat ∧ a.toNat ≤ 0xFDFF then some (wramCell e.cfg a.toNat)
    else if 0xFF80 ≤ a.toNat ∧ a.toNat ≤ 0xFFFE then some a.toNat
    else none

/-- Whether a read of the address is answered by the boot overlay: `RefBus`, latch set, 0x0000 to 0x00FF (R68). -/
def Env.overlaid (e : Env) (a : Addr) : Bool :=
  decide (e.cfg.bus = .ref) && e.bootEn && decide (a.toNat ≤ 0x00FF)

/-- The overlay's byte at an address, `BootRom[a]` (R70). -/
def Env.overlayByte (e : Env) (a : Addr) : Byte :=
  match e.cfg.bootRom with
  | some rom => Memory.get rom a.toNat
  | none => Config.unsuppliedByte a

/-- The byte a read of an address returns (`RefBus.read` of R70, `read` of R71): the overlay's byte, the RAM cell's
byte, or 0xFF where the address is unmapped (R69); an external environment's own answer (R61). -/
def Env.peek (e : Env) (a : Addr) : Byte :=
  if e.cfg.bus = .external then (Config.externalRead e.ext a).1
  else if e.overlaid a then e.overlayByte a
  else
    match e.ramCell a with
    | some k => e.mem.get k
    | none => 0xFF

/-- The environment after a read: as before under `RefBus` and `FlatBus` (R70, R71); an external environment may change
(R61, R72). -/
def Env.afterRead (e : Env) (a : Addr) : Env :=
  if e.cfg.bus = .external then { e with ext := (Config.externalRead e.ext a).2 } else e

/-- `read : Env x Addr16 -> Byte x Env` (R61). -/
def Env.read (e : Env) (a : Addr) : Byte × Env := (e.peek a, e.afterRead a)

/-- Whether a write is one that clears the boot-enable latch: `RefBus`, address 0xFF50, a value `BootDisableOn` holds
of (R68, R70). -/
def Env.disablesBoot (e : Env) (a : Addr) (v : Byte) : Bool :=
  decide (e.cfg.bus = .ref) && decide (a = 0xFF50#16) && e.cfg.bootDisableOn.getLsbD v.toNat

/-- `write : Env x Addr16 x Byte -> Env` (R62; `RefBus.write` of R70, `write` of R71): RAM stores, 0xFF50 acts on the
latch, every other write is dropped; an external environment does what it does. -/
def Env.write (e : Env) (a : Addr) (v : Byte) : Env :=
  if e.cfg.bus = .external then { e with ext := Config.externalWrite e.ext a v }
  else
    match e.ramCell a with
    | some k => { e with mem := e.mem.set k v }
    | none => if e.disablesBoot a v then { e with bootEn := false } else e

end Sys2Proof.Machine
end

