-- ==== Sys2Proof/Machine/Ops.lean ====
section
/-! DEFINITION. The named operations every meaning is written over: register reads and writes (10_state.md R20 to R23),
the memory primitives (00_scope.md R12), the immediate primitives (R13), the fetch of an opcode byte (40_controller.md
R141) and of the byte after the CB prefix (R146), the end of a handler (R143), and the entry into a fault
(60_exceptions.md R335). There is no return from a fault (R336), so none stands beside its entry. -/

namespace Sys2Proof.Machine

/-- What a meaning or a step answers. -/
abbrev Result := Host.Outcome State Fault Refusal

/-! ## Registers -/

/-- A read of an 8-bit register (R20, R161). -/
def State.reg8 (s : State) : Reg8 → Byte
  | .a => s.a
  | .b => s.b
  | .c => s.c
  | .d => s.d
  | .e => s.e
  | .h => s.h
  | .l => s.l

/-- A write of an 8-bit register (R20, R161). -/
def State.setReg8 (s : State) (r : Reg8) (v : Byte) : State :=
  match r with
  | .a => { s with a := v }
  | .b => { s with b := v }
  | .c => { s with c := v }
  | .d => { s with d := v }
  | .e => { s with e := v }
  | .h => { s with h := v }
  | .l => { s with l := v }

/-- A read of a pair, "high byte = first-named register, low byte = second" (R22), or of SP (R162). -/
def State.reg16 (s : State) : Reg16 → Word
  | .bc => join s.b s.c
  | .de => join s.d s.e
  | .hl => join s.h s.l
  | .sp => s.sp
  | .af => join s.a s.f

/-- A write of a pair, both halves at once, the AF setter clearing the low nibble of F (R23), or of SP (R162). -/
def State.setReg16 (s : State) (rr : Reg16) (w : Word) : State :=
  match rr with
  | .bc => { s with b := hi8 w, c := lo8 w }
  | .de => { s with d := hi8 w, e := lo8 w }
  | .hl => { s with h := hi8 w, l := lo8 w }
  | .sp => { s with sp := w }
  | .af => { s with a := hi8 w, f := lo8 w &&& 0xF0 }

/-- The register pair behind an indirect operand (R166). -/
def ptrReg : Ptr → Reg16
  | .bc => .bc
  | .de => .de
  | .hl => .hl

/-! ## Memory and immediates -/

/-- `MemRead(addr, 1)`: one bus read, recorded (R12). -/
def memRead (a : Addr) (s : State) : Byte × State :=
  let answer := s.env.read a
  (answer.1, { s with env := answer.2, bus := s.bus ++ [.rd a answer.1] })

/-- `MemWrite(addr, 1, v)`: one bus write, recorded (R12). -/
def memWrite (a : Addr) (v : Byte) (s : State) : State :=
  { s with env := s.env.write a v, bus := s.bus ++ [.wr a v] }

/-- `MemRead(addr, 2)`: low byte first, at the lower address; the second address wraps (R12, R64, R65). -/
def memRead16 (a : Addr) (s : State) : Word × State :=
  let lo := memRead a s
  let hi := memRead (a + 1) lo.2
  (join hi.1 lo.1, hi.2)

/-- `MemWrite(addr, 2, w)`: low byte first, at the lower address; the second address wraps (R12, R64, R65). -/
def memWrite16 (a : Addr) (w : Word) (s : State) : State :=
  memWrite (a + 1) (hi8 w) (memWrite a (lo8 w) s)

/-- `Imm8()`: one byte at PC, PC advanced by one (R13, R163). -/
def imm8 (s : State) : Byte × State :=
  let v := memRead s.pc s
  (v.1, { v.2 with pc := s.pc + 1 })

/-- `Imm16()`: two bytes at PC, low byte first, PC advanced by two (R13, R164). -/
def imm16 (s : State) : Word × State :=
  let lo := imm8 s
  let hi := imm8 lo.2
  (join hi.1 lo.1, hi.2)

/-- `PUSH16(w)` (48_push.md R310): SP down one, high byte; SP down one, low byte. -/
def push16 (w : Word) (s : State) : State :=
  let s1 := memWrite (s.sp - 1) (hi8 w) { s with sp := s.sp - 1 }
  memWrite (s1.sp - 1) (lo8 w) { s1 with sp := s1.sp - 1 }

/-! ## The controller's own operations -/

/-- Fetch (R141): latch the opcode byte at PC, advance PC, clear the CB flag, go to Decode. It opens a new instruction,
so the record of bus events starts anew (R79). -/
def fetch (s : State) : State :=
  let v := memRead s.pc { s with bus := [] }
  { v.2 with fetchAddr := s.pc, opcode := v.1, pc := s.pc + 1, cb := false, phase := .decode }

/-- `PREFIX CB` (R146): latch the CB-table opcode byte at PC, advance PC, set the CB flag, go to Decode again. -/
def fetchCb (s : State) : State :=
  let v := memRead s.pc s
  { v.2 with fetchAddr := s.pc, opcode := v.1, pc := s.pc + 1, cb := true, phase := .decode }

/-- The in-flight fields at rest, "idle/fetch-pending" (R36, R43). -/
def State.idle (s : State) : State :=
  { s with handler := .idle, stage := 0, scratch8 := 0, scratch16 := 0 }

/-- "fetch next", the last stage of every handler (R143): the in-flight fields return to rest, the phase to Fetch. -/
def complete (s : State) : State := { s.idle with phase := .fetch }

/-- Fault entry (R335, R14): the controller goes to Faulted and stores the record (R38) of the pair and of the address
its byte was read from. No register, flag or memory byte changes, and control goes nowhere. -/
def enterFault (kind : FaultKind) (opcode : Byte) (cb : Bool) (s : State) : State :=
  { s.idle with
    phase := .faulted
    fault := some { kind := kind, opcode := opcode, cb := cb, addr := s.fetchAddr } }

/-- `raise UnimplementedOpcode(opcode, cb, fetch_addr)` (R331). -/
def raiseUnimplemented (opcode : Byte) (cb : Bool) (s : State) : Result :=
  .fault (.unimplementedOpcode (enterFault .unimplementedOpcode opcode cb s))

/-- `raise ProtocolMisuse` (R332), for the instruction in flight. -/
def raiseMisuse (s : State) : Result :=
  .fault (.protocolMisuse (enterFault .protocolMisuse s.opcode s.cb s))

/-- End the handler after an operation that answered a next state; a fault stays as it is (R14). -/
def thenComplete : Result → Result
  | .next s => .next (complete s)
  | .fault r => .fault r
  | .refused r => .refused r

end Sys2Proof.Machine
end

