-- ==== Sys2Proof/Machine/Operands.lean ====
section
/-! DEFINITION. The operand operators of 41_operands.md R160 to R171 at the instruction level: every kind with its read
and its write. An operand that takes bytes from the instruction stream carries them: the step takes them with `Imm8` and
`Imm16` right after the opcode byte, before any data access (R173; notes/assumptions 14). The tick level
(Machine/Tick.lean) takes them inside the operator.

Then the handlers (00_scope.md R3): what each family does with its operands. A handler ends with "fetch next". -/

namespace Sys2Proof.Machine

/-- The 8-bit operands (R160). -/
inductive Operand8 where
  /-- `Reg8(r)` (R161). -/
  | reg (r : Reg8)
  /-- `Imm8`, the byte taken (R163). -/
  | imm8 (n : Byte)
  /-- `Ind(BC)`, `Ind(DE)`, `Ind(HL)` (R166). -/
  | ind (p : Ptr)
  /-- `IndInc(HL)` (R167). -/
  | indInc
  /-- `IndDec(HL)` (R167). -/
  | indDec
  /-- `HighC` (R168). -/
  | highC
  /-- `Direct8Abs`, the address taken (R169). -/
  | direct8Abs (nn : Word)
  /-- `Direct8High`, the address byte taken (R170). -/
  | direct8High (n : Byte)
deriving DecidableEq, Repr

/-- The 16-bit operands (R160). -/
inductive Operand16 where
  /-- `Reg16(rr)` (R162). -/
  | reg16 (rr : Reg16)
  /-- `Imm16`, the word taken (R164). -/
  | imm16 (nn : Word)
  /-- `Direct16`, the address taken (R171). -/
  | direct16 (nn : Word)
deriving DecidableEq, Repr

/-- The effective address of a memory operand, from the registers as they stand before the access (R166 to R170). -/
def Operand8.addr (s : State) : Operand8 → Option Addr
  | .reg _ => none
  | .imm8 _ => none
  | .ind p => some (s.reg16 (ptrReg p))
  | .indInc => some (s.reg16 .hl)
  | .indDec => some (s.reg16 .hl)
  | .highC => some (highPage s.c)
  | .direct8Abs nn => some nn
  | .direct8High n => some (highPage n)

/-- `read` of an 8-bit operand (R161 to R170). -/
def Operand8.read (k : Operand8) (s : State) : Byte × State :=
  match k with
  | .reg r => (s.reg8 r, s)
  | .imm8 n => (n, s)
  | .ind p => memRead (s.reg16 (ptrReg p)) s
  | .indInc =>
    let a := s.reg16 .hl
    let v := memRead a s
    (v.1, v.2.setReg16 .hl (a + 1))
  | .indDec =>
    let a := s.reg16 .hl
    let v := memRead a s
    (v.1, v.2.setReg16 .hl (a - 1))
  | .highC => memRead (highPage s.c) s
  | .direct8Abs nn => memRead nn s
  | .direct8High n => memRead (highPage n) s

/-- `write` of an 8-bit operand (R161 to R170); an immediate is read-only (R165). -/
def Operand8.write (k : Operand8) (v : Byte) (s : State) : Result :=
  match k with
  | .reg r => .next (s.setReg8 r v)
  | .imm8 _ => raiseMisuse s
  | .ind p => .next (memWrite (s.reg16 (ptrReg p)) v s)
  | .indInc =>
    let a := s.reg16 .hl
    .next ((memWrite a v s).setReg16 .hl (a + 1))
  | .indDec =>
    let a := s.reg16 .hl
    .next ((memWrite a v s).setReg16 .hl (a - 1))
  | .highC => .next (memWrite (highPage s.c) v s)
  | .direct8Abs nn => .next (memWrite nn v s)
  | .direct8High n => .next (memWrite (highPage n) v s)

/-- `read` of a 16-bit operand (R162, R164, R171). -/
def Operand16.read (k : Operand16) (s : State) : Word × State :=
  match k with
  | .reg16 rr => (s.reg16 rr, s)
  | .imm16 nn => (nn, s)
  | .direct16 nn => memRead16 nn s

/-- `write` of a 16-bit operand (R162, R171); an immediate is read-only (R165). -/
def Operand16.write (k : Operand16) (w : Word) (s : State) : Result :=
  match k with
  | .reg16 rr => .next (s.setReg16 rr w)
  | .imm16 _ => raiseMisuse s
  | .direct16 nn => .next (memWrite16 nn w s)

/-! ## The handlers -/

/-- `NOP` (R190): nothing, then "fetch next". -/
def noOperation (s : State) : Result := .next (complete s)

/-- `LD dst, src` (R198): read the source, write the destination (R173). -/
def ld8 (dst src : Operand8) (s : State) : Result :=
  let v := src.read s
  thenComplete (dst.write v.1 v.2)

/-- `LD16 dst, src` (R250). -/
def ld16 (dst src : Operand16) (s : State) : Result :=
  let w := src.read s
  thenComplete (dst.write w.1 w.2)

/-- `CP src` (R260): the flags of A minus the operand; A is not written. -/
def compareWithA (src : Operand8) (s : State) : Result :=
  let v := src.read s
  .next (complete { v.2 with f := cpFlags v.2.a v.1 v.2.f })

/-- Read an operand, compute a byte and flags from it, write it back (R272 to R275, R291, R292). -/
def modify (op : Byte → Byte → Byte × Byte) (k : Operand8) (s : State) : Result :=
  let v := k.read s
  let r := op v.1 v.2.f
  thenComplete (k.write r.1 { v.2 with f := r.2 })

/-- `INC src`, 8-bit (R270, R272, R274). -/
def increment (k : Operand8) (s : State) : Result := modify inc8 k s

/-- `DEC src`, 8-bit (R271, R273, R275). -/
def decrement (k : Operand8) (s : State) : Result := modify dec8 k s

/-- `RL src` (R290 to R292). -/
def rotateLeft (k : Operand8) (s : State) : Result := modify rl8 k s

/-- `BIT b, src` (R293 to R295): the operand is read and not written. -/
def bitTest (b : BitVec 3) (k : Operand8) (s : State) : Result :=
  let v := k.read s
  .next (complete { v.2 with f := bitFlags b v.1 v.2.f })

/-- `INC rr` (R276): modulo 2^16, no flag. -/
def increment16 (rr : Reg16) (s : State) : Result :=
  .next (complete (s.setReg16 rr (s.reg16 rr + 1)))

/-- `DEC rr` (R277): modulo 2^16, no flag. -/
def decrement16 (rr : Reg16) (s : State) : Result :=
  .next (complete (s.setReg16 rr (s.reg16 rr - 1)))

/-- `PUSH rr` (R311): the pair is read once, before SP changes. -/
def push (rr : Reg16) (s : State) : Result :=
  .next (complete (push16 (s.reg16 rr) s))

/-- `JR cc,e` (R321): PC points after the offset byte already; taken, it moves by the signed offset. -/
def jumpRelative (cc : Cond) (e : Byte) (s : State) : Result :=
  .next (complete (if condHolds cc s.f then { s with pc := s.pc + sext16 e } else s))

end Sys2Proof.Machine
end

