-- ==== Sys2Proof/Machine/Compare.lean ====
section
/-! DEFINITION. The meanings of CP (45_cp.md R261 to R263). -/

namespace Sys2Proof.Machine

/-- `CP B` (R261). -/
def execCp_B (s : State) : Result := compareWithA (.reg .b) s

/-- `CP C` (R261). -/
def execCp_C (s : State) : Result := compareWithA (.reg .c) s

/-- `CP D` (R261). -/
def execCp_D (s : State) : Result := compareWithA (.reg .d) s

/-- `CP E` (R261). -/
def execCp_E (s : State) : Result := compareWithA (.reg .e) s

/-- `CP H` (R261). -/
def execCp_H (s : State) : Result := compareWithA (.reg .h) s

/-- `CP L` (R261). -/
def execCp_L (s : State) : Result := compareWithA (.reg .l) s

/-- `CP (HL)` (R262). -/
def execCp_atHL (s : State) : Result := compareWithA (.ind .hl) s

/-- `CP A` (R261). -/
def execCp_A (s : State) : Result := compareWithA (.reg .a) s

/-- `CP n` (R263). -/
def execCp_n (n : Byte) (s : State) : Result := compareWithA (.imm8 n) s

end Sys2Proof.Machine
end

