-- ==== Sys2Proof/Machine/Control.lean ====
section
/-! DEFINITION. The meanings of NOP (42_nop.md R190), of PREFIX CB (40_controller.md R146) and of a pair without a handler
(60_exceptions.md R331). PREFIX CB latches the byte after it and leaves the controller in Decode: the step decodes that
byte in the CB table and runs what it names, one instruction with the prefix (R145). -/

namespace Sys2Proof.Machine

/-- `NOP` (R190). -/
def execNop (s : State) : Result := noOperation s

/-- `PREFIX CB` (R146). -/
def execPrefix_CB (s : State) : Result := .next (fetchCb s)

/-- A pair without a handler: the fault `UnimplementedOpcode` (R331), entered as R335 says. -/
def execUnimplemented (opcode : Byte) (cb : Bool) (s : State) : Result := raiseUnimplemented opcode cb s

end Sys2Proof.Machine
end

