-- ==== Sys2Proof/Machine/IncDec.lean ====
section
/-! DEFINITION. The meanings of INC and DEC, 8-bit and 16-bit (46_incdec.md R272 to R277). -/

namespace Sys2Proof.Machine

/-- `INC BC` (R276). -/
def execInc_BC (s : State) : Result := increment16 .bc s

/-- `INC B` (R272). -/
def execInc_B (s : State) : Result := increment (.reg .b) s

/-- `DEC B` (R273). -/
def execDec_B (s : State) : Result := decrement (.reg .b) s

/-- `DEC BC` (R277). -/
def execDec_BC (s : State) : Result := decrement16 .bc s

/-- `INC C` (R272). -/
def execInc_C (s : State) : Result := increment (.reg .c) s

/-- `DEC C` (R273). -/
def execDec_C (s : State) : Result := decrement (.reg .c) s

/-- `INC DE` (R276). -/
def execInc_DE (s : State) : Result := increment16 .de s

/-- `INC D` (R272). -/
def execInc_D (s : State) : Result := increment (.reg .d) s

/-- `DEC D` (R273). -/
def execDec_D (s : State) : Result := decrement (.reg .d) s

/-- `DEC DE` (R277). -/
def execDec_DE (s : State) : Result := decrement16 .de s

/-- `INC E` (R272). -/
def execInc_E (s : State) : Result := increment (.reg .e) s

/-- `DEC E` (R273). -/
def execDec_E (s : State) : Result := decrement (.reg .e) s

/-- `INC HL` (R276). -/
def execInc_HL (s : State) : Result := increment16 .hl s

/-- `INC H` (R272). -/
def execInc_H (s : State) : Result := increment (.reg .h) s

/-- `DEC H` (R273). -/
def execDec_H (s : State) : Result := decrement (.reg .h) s

/-- `DEC HL` (R277). -/
def execDec_HL (s : State) : Result := decrement16 .hl s

/-- `INC L` (R272). -/
def execInc_L (s : State) : Result := increment (.reg .l) s

/-- `DEC L` (R273). -/
def execDec_L (s : State) : Result := decrement (.reg .l) s

/-- `INC SP` (R276). -/
def execInc_SP (s : State) : Result := increment16 .sp s

/-- `INC (HL)` (R274). -/
def execInc_atHL (s : State) : Result := increment (.ind .hl) s

/-- `DEC (HL)` (R275). -/
def execDec_atHL (s : State) : Result := decrement (.ind .hl) s

/-- `DEC SP` (R277). -/
def execDec_SP (s : State) : Result := decrement16 .sp s

/-- `INC A` (R272). -/
def execInc_A (s : State) : Result := increment (.reg .a) s

/-- `DEC A` (R273). -/
def execDec_A (s : State) : Result := decrement (.reg .a) s

end Sys2Proof.Machine
end

