-- ==== Sys2Proof/Machine/Jump.lean ====
section
/-! DEFINITION. The meanings of JR cc (49_jr.md R321). -/

namespace Sys2Proof.Machine

/-- `JR NZ,e` (R321). -/
def execJr_NZ_e (e : Byte) (s : State) : Result := jumpRelative .nz e s

/-- `JR Z,e` (R321). -/
def execJr_Z_e (e : Byte) (s : State) : Result := jumpRelative .z e s

/-- `JR NC,e` (R321). -/
def execJr_NC_e (e : Byte) (s : State) : Result := jumpRelative .nc e s

/-- `JR C,e` (R321). -/
def execJr_C_e (e : Byte) (s : State) : Result := jumpRelative .c e s

end Sys2Proof.Machine
end

