-- ==== Sys2Proof/Machine/Load16.lean ====
section
/-! DEFINITION. The meanings of the 16-bit loads (44_ld16.md R251 to R253), each `LD16 dst, src` of R250 over its operands. -/

namespace Sys2Proof.Machine

/-- `LD BC,nn` (R251). -/
def execLd_BC_nn (nn : Word) (s : State) : Result := ld16 (.reg16 .bc) (.imm16 nn) s

/-- `LD (nn),SP` (R252). -/
def execLd_atNN_SP (nn : Word) (s : State) : Result := ld16 (.direct16 nn) (.reg16 .sp) s

/-- `LD DE,nn` (R251). -/
def execLd_DE_nn (nn : Word) (s : State) : Result := ld16 (.reg16 .de) (.imm16 nn) s

/-- `LD HL,nn` (R251). -/
def execLd_HL_nn (nn : Word) (s : State) : Result := ld16 (.reg16 .hl) (.imm16 nn) s

/-- `LD SP,nn` (R251). -/
def execLd_SP_nn (nn : Word) (s : State) : Result := ld16 (.reg16 .sp) (.imm16 nn) s

/-- `LD SP,HL` (R253). -/
def execLd_SP_HL (s : State) : Result := ld16 (.reg16 .sp) (.reg16 .hl) s

end Sys2Proof.Machine
end

