-- ==== Sys2Proof/Machine/Load8.lean ====
section
/-! DEFINITION. The meanings of the 8-bit loads (43_ld8.md R200 to R218), each `LD dst, src` of R198 over its operands. -/

namespace Sys2Proof.Machine

/-- `LD (BC),A` (R207). -/
def execLd_atBC_A (s : State) : Result := ld8 (.ind .bc) (.reg .a) s

/-- `LD B,n` (R201). -/
def execLd_B_n (n : Byte) (s : State) : Result := ld8 (.reg .b) (.imm8 n) s

/-- `LD A,(BC)` (R205). -/
def execLd_A_atBC (s : State) : Result := ld8 (.reg .a) (.ind .bc) s

/-- `LD C,n` (R201). -/
def execLd_C_n (n : Byte) (s : State) : Result := ld8 (.reg .c) (.imm8 n) s

/-- `LD (DE),A` (R208). -/
def execLd_atDE_A (s : State) : Result := ld8 (.ind .de) (.reg .a) s

/-- `LD D,n` (R201). -/
def execLd_D_n (n : Byte) (s : State) : Result := ld8 (.reg .d) (.imm8 n) s

/-- `LD A,(DE)` (R206). -/
def execLd_A_atDE (s : State) : Result := ld8 (.reg .a) (.ind .de) s

/-- `LD E,n` (R201). -/
def execLd_E_n (n : Byte) (s : State) : Result := ld8 (.reg .e) (.imm8 n) s

/-- `LD (HL+),A` (R209). -/
def execLd_atHLinc_A (s : State) : Result := ld8 .indInc (.reg .a) s

/-- `LD H,n` (R201). -/
def execLd_H_n (n : Byte) (s : State) : Result := ld8 (.reg .h) (.imm8 n) s

/-- `LD A,(HL+)` (R211). -/
def execLd_A_atHLinc (s : State) : Result := ld8 (.reg .a) .indInc s

/-- `LD L,n` (R201). -/
def execLd_L_n (n : Byte) (s : State) : Result := ld8 (.reg .l) (.imm8 n) s

/-- `LD (HL-),A` (R210). -/
def execLd_atHLdec_A (s : State) : Result := ld8 .indDec (.reg .a) s

/-- `LD (HL),n` (R204). -/
def execLd_atHL_n (n : Byte) (s : State) : Result := ld8 (.ind .hl) (.imm8 n) s

/-- `LD A,(HL-)` (R212). -/
def execLd_A_atHLdec (s : State) : Result := ld8 (.reg .a) .indDec s

/-- `LD A,n` (R201). -/
def execLd_A_n (n : Byte) (s : State) : Result := ld8 (.reg .a) (.imm8 n) s

/-- `LD B,B` (R200). -/
def execLd_B_B (s : State) : Result := ld8 (.reg .b) (.reg .b) s

/-- `LD B,C` (R200). -/
def execLd_B_C (s : State) : Result := ld8 (.reg .b) (.reg .c) s

/-- `LD B,D` (R200). -/
def execLd_B_D (s : State) : Result := ld8 (.reg .b) (.reg .d) s

/-- `LD B,E` (R200). -/
def execLd_B_E (s : State) : Result := ld8 (.reg .b) (.reg .e) s

/-- `LD B,H` (R200). -/
def execLd_B_H (s : State) : Result := ld8 (.reg .b) (.reg .h) s

/-- `LD B,L` (R200). -/
def execLd_B_L (s : State) : Result := ld8 (.reg .b) (.reg .l) s

/-- `LD B,(HL)` (R202). -/
def execLd_B_atHL (s : State) : Result := ld8 (.reg .b) (.ind .hl) s

/-- `LD B,A` (R200). -/
def execLd_B_A (s : State) : Result := ld8 (.reg .b) (.reg .a) s

/-- `LD C,B` (R200). -/
def execLd_C_B (s : State) : Result := ld8 (.reg .c) (.reg .b) s

/-- `LD C,C` (R200). -/
def execLd_C_C (s : State) : Result := ld8 (.reg .c) (.reg .c) s

/-- `LD C,D` (R200). -/
def execLd_C_D (s : State) : Result := ld8 (.reg .c) (.reg .d) s

/-- `LD C,E` (R200). -/
def execLd_C_E (s : State) : Result := ld8 (.reg .c) (.reg .e) s

/-- `LD C,H` (R200). -/
def execLd_C_H (s : State) : Result := ld8 (.reg .c) (.reg .h) s

/-- `LD C,L` (R200). -/
def execLd_C_L (s : State) : Result := ld8 (.reg .c) (.reg .l) s

/-- `LD C,(HL)` (R202). -/
def execLd_C_atHL (s : State) : Result := ld8 (.reg .c) (.ind .hl) s

/-- `LD C,A` (R200). -/
def execLd_C_A (s : State) : Result := ld8 (.reg .c) (.reg .a) s

/-- `LD D,B` (R200). -/
def execLd_D_B (s : State) : Result := ld8 (.reg .d) (.reg .b) s

/-- `LD D,C` (R200). -/
def execLd_D_C (s : State) : Result := ld8 (.reg .d) (.reg .c) s

/-- `LD D,D` (R200). -/
def execLd_D_D (s : State) : Result := ld8 (.reg .d) (.reg .d) s

/-- `LD D,E` (R200). -/
def execLd_D_E (s : State) : Result := ld8 (.reg .d) (.reg .e) s

/-- `LD D,H` (R200). -/
def execLd_D_H (s : State) : Result := ld8 (.reg .d) (.reg .h) s

/-- `LD D,L` (R200). -/
def execLd_D_L (s : State) : Result := ld8 (.reg .d) (.reg .l) s

/-- `LD D,(HL)` (R202). -/
def execLd_D_atHL (s : State) : Result := ld8 (.reg .d) (.ind .hl) s

/-- `LD D,A` (R200). -/
def execLd_D_A (s : State) : Result := ld8 (.reg .d) (.reg .a) s

/-- `LD E,B` (R200). -/
def execLd_E_B (s : State) : Result := ld8 (.reg .e) (.reg .b) s

/-- `LD E,C` (R200). -/
def execLd_E_C (s : State) : Result := ld8 (.reg .e) (.reg .c) s

/-- `LD E,D` (R200). -/
def execLd_E_D (s : State) : Result := ld8 (.reg .e) (.reg .d) s

/-- `LD E,E` (R200). -/
def execLd_E_E (s : State) : Result := ld8 (.reg .e) (.reg .e) s

/-- `LD E,H` (R200). -/
def execLd_E_H (s : State) : Result := ld8 (.reg .e) (.reg .h) s

/-- `LD E,L` (R200). -/
def execLd_E_L (s : State) : Result := ld8 (.reg .e) (.reg .l) s

/-- `LD E,(HL)` (R202). -/
def execLd_E_atHL (s : State) : Result := ld8 (.reg .e) (.ind .hl) s

/-- `LD E,A` (R200). -/
def execLd_E_A (s : State) : Result := ld8 (.reg .e) (.reg .a) s

/-- `LD H,B` (R200). -/
def execLd_H_B (s : State) : Result := ld8 (.reg .h) (.reg .b) s

/-- `LD H,C` (R200). -/
def execLd_H_C (s : State) : Result := ld8 (.reg .h) (.reg .c) s

/-- `LD H,D` (R200). -/
def execLd_H_D (s : State) : Result := ld8 (.reg .h) (.reg .d) s

/-- `LD H,E` (R200). -/
def execLd_H_E (s : State) : Result := ld8 (.reg .h) (.reg .e) s

/-- `LD H,H` (R200). -/
def execLd_H_H (s : State) : Result := ld8 (.reg .h) (.reg .h) s

/-- `LD H,L` (R200). -/
def execLd_H_L (s : State) : Result := ld8 (.reg .h) (.reg .l) s

/-- `LD H,(HL)` (R202). -/
def execLd_H_atHL (s : State) : Result := ld8 (.reg .h) (.ind .hl) s

/-- `LD H,A` (R200). -/
def execLd_H_A (s : State) : Result := ld8 (.reg .h) (.reg .a) s

/-- `LD L,B` (R200). -/
def execLd_L_B (s : State) : Result := ld8 (.reg .l) (.reg .b) s

/-- `LD L,C` (R200). -/
def execLd_L_C (s : State) : Result := ld8 (.reg .l) (.reg .c) s

/-- `LD L,D` (R200). -/
def execLd_L_D (s : State) : Result := ld8 (.reg .l) (.reg .d) s

/-- `LD L,E` (R200). -/
def execLd_L_E (s : State) : Result := ld8 (.reg .l) (.reg .e) s

/-- `LD L,H` (R200). -/
def execLd_L_H (s : State) : Result := ld8 (.reg .l) (.reg .h) s

/-- `LD L,L` (R200). -/
def execLd_L_L (s : State) : Result := ld8 (.reg .l) (.reg .l) s

/-- `LD L,(HL)` (R202). -/
def execLd_L_atHL (s : State) : Result := ld8 (.reg .l) (.ind .hl) s

/-- `LD L,A` (R200). -/
def execLd_L_A (s : State) : Result := ld8 (.reg .l) (.reg .a) s

/-- `LD (HL),B` (R203). -/
def execLd_atHL_B (s : State) : Result := ld8 (.ind .hl) (.reg .b) s

/-- `LD (HL),C` (R203). -/
def execLd_atHL_C (s : State) : Result := ld8 (.ind .hl) (.reg .c) s

/-- `LD (HL),D` (R203). -/
def execLd_atHL_D (s : State) : Result := ld8 (.ind .hl) (.reg .d) s

/-- `LD (HL),E` (R203). -/
def execLd_atHL_E (s : State) : Result := ld8 (.ind .hl) (.reg .e) s

/-- `LD (HL),H` (R203). -/
def execLd_atHL_H (s : State) : Result := ld8 (.ind .hl) (.reg .h) s

/-- `LD (HL),L` (R203). -/
def execLd_atHL_L (s : State) : Result := ld8 (.ind .hl) (.reg .l) s

/-- `LD (HL),A` (R203). -/
def execLd_atHL_A (s : State) : Result := ld8 (.ind .hl) (.reg .a) s

/-- `LD A,B` (R200). -/
def execLd_A_B (s : State) : Result := ld8 (.reg .a) (.reg .b) s

/-- `LD A,C` (R200). -/
def execLd_A_C (s : State) : Result := ld8 (.reg .a) (.reg .c) s

/-- `LD A,D` (R200). -/
def execLd_A_D (s : State) : Result := ld8 (.reg .a) (.reg .d) s

/-- `LD A,E` (R200). -/
def execLd_A_E (s : State) : Result := ld8 (.reg .a) (.reg .e) s

/-- `LD A,H` (R200). -/
def execLd_A_H (s : State) : Result := ld8 (.reg .a) (.reg .h) s

/-- `LD A,L` (R200). -/
def execLd_A_L (s : State) : Result := ld8 (.reg .a) (.reg .l) s

/-- `LD A,(HL)` (R202). -/
def execLd_A_atHL (s : State) : Result := ld8 (.reg .a) (.ind .hl) s

/-- `LD A,A` (R200). -/
def execLd_A_A (s : State) : Result := ld8 (.reg .a) (.reg .a) s

/-- `LDH (n),A` (R215). -/
def execLdh_atN_A (n : Byte) (s : State) : Result := ld8 (.direct8High n) (.reg .a) s

/-- `LD (C),A` (R213). -/
def execLd_atC_A (s : State) : Result := ld8 .highC (.reg .a) s

/-- `LD (nn),A` (R217). -/
def execLd_atNN_A (nn : Word) (s : State) : Result := ld8 (.direct8Abs nn) (.reg .a) s

/-- `LDH A,(n)` (R216). -/
def execLdh_A_atN (n : Byte) (s : State) : Result := ld8 (.reg .a) (.direct8High n) s

/-- `LD A,(C)` (R214). -/
def execLd_A_atC (s : State) : Result := ld8 (.reg .a) .highC s

/-- `LD A,(nn)` (R218). -/
def execLd_A_atNN (nn : Word) (s : State) : Result := ld8 (.reg .a) (.direct8Abs nn) s

end Sys2Proof.Machine
end

