-- ==== Sys2Proof/Machine/RotateBit.lean ====
section
/-! DEFINITION. The meanings of RL and BIT (47_rl_bit.md R291, R292, R294, R295), the CB-table instructions. -/

namespace Sys2Proof.Machine

/-- `RL B` (R291). -/
def execRl_B (s : State) : Result := rotateLeft (.reg .b) s

/-- `RL C` (R291). -/
def execRl_C (s : State) : Result := rotateLeft (.reg .c) s

/-- `RL D` (R291). -/
def execRl_D (s : State) : Result := rotateLeft (.reg .d) s

/-- `RL E` (R291). -/
def execRl_E (s : State) : Result := rotateLeft (.reg .e) s

/-- `RL H` (R291). -/
def execRl_H (s : State) : Result := rotateLeft (.reg .h) s

/-- `RL L` (R291). -/
def execRl_L (s : State) : Result := rotateLeft (.reg .l) s

/-- `RL (HL)` (R292). -/
def execRl_atHL (s : State) : Result := rotateLeft (.ind .hl) s

/-- `RL A` (R291). -/
def execRl_A (s : State) : Result := rotateLeft (.reg .a) s

/-- `BIT 0,B` (R294). -/
def execBit_0_B (s : State) : Result := bitTest 0 (.reg .b) s

/-- `BIT 0,C` (R294). -/
def execBit_0_C (s : State) : Result := bitTest 0 (.reg .c) s

/-- `BIT 0,D` (R294). -/
def execBit_0_D (s : State) : Result := bitTest 0 (.reg .d) s

/-- `BIT 0,E` (R294). -/
def execBit_0_E (s : State) : Result := bitTest 0 (.reg .e) s

/-- `BIT 0,H` (R294). -/
def execBit_0_H (s : State) : Result := bitTest 0 (.reg .h) s

/-- `BIT 0,L` (R294). -/
def execBit_0_L (s : State) : Result := bitTest 0 (.reg .l) s

/-- `BIT 0,(HL)` (R295). -/
def execBit_0_atHL (s : State) : Result := bitTest 0 (.ind .hl) s

/-- `BIT 0,A` (R294). -/
def execBit_0_A (s : State) : Result := bitTest 0 (.reg .a) s

/-- `BIT 1,B` (R294). -/
def execBit_1_B (s : State) : Result := bitTest 1 (.reg .b) s

/-- `BIT 1,C` (R294). -/
def execBit_1_C (s : State) : Result := bitTest 1 (.reg .c) s

/-- `BIT 1,D` (R294). -/
def execBit_1_D (s : State) : Result := bitTest 1 (.reg .d) s

/-- `BIT 1,E` (R294). -/
def execBit_1_E (s : State) : Result := bitTest 1 (.reg .e) s

/-- `BIT 1,H` (R294). -/
def execBit_1_H (s : State) : Result := bitTest 1 (.reg .h) s

/-- `BIT 1,L` (R294). -/
def execBit_1_L (s : State) : Result := bitTest 1 (.reg .l) s

/-- `BIT 1,(HL)` (R295). -/
def execBit_1_atHL (s : State) : Result := bitTest 1 (.ind .hl) s

/-- `BIT 1,A` (R294). -/
def execBit_1_A (s : State) : Result := bitTest 1 (.reg .a) s

/-- `BIT 2,B` (R294). -/
def execBit_2_B (s : State) : Result := bitTest 2 (.reg .b) s

/-- `BIT 2,C` (R294). -/
def execBit_2_C (s : State) : Result := bitTest 2 (.reg .c) s

/-- `BIT 2,D` (R294). -/
def execBit_2_D (s : State) : Result := bitTest 2 (.reg .d) s

/-- `BIT 2,E` (R294). -/
def execBit_2_E (s : State) : Result := bitTest 2 (.reg .e) s

/-- `BIT 2,H` (R294). -/
def execBit_2_H (s : State) : Result := bitTest 2 (.reg .h) s

/-- `BIT 2,L` (R294). -/
def execBit_2_L (s : State) : Result := bitTest 2 (.reg .l) s

/-- `BIT 2,(HL)` (R295). -/
def execBit_2_atHL (s : State) : Result := bitTest 2 (.ind .hl) s

/-- `BIT 2,A` (R294). -/
def execBit_2_A (s : State) : Result := bitTest 2 (.reg .a) s

/-- `BIT 3,B` (R294). -/
def execBit_3_B (s : State) : Result := bitTest 3 (.reg .b) s

/-- `BIT 3,C` (R294). -/
def execBit_3_C (s : State) : Result := bitTest 3 (.reg .c) s

/-- `BIT 3,D` (R294). -/
def execBit_3_D (s : State) : Result := bitTest 3 (.reg .d) s

/-- `BIT 3,E` (R294). -/
def execBit_3_E (s : State) : Result := bitTest 3 (.reg .e) s

/-- `BIT 3,H` (R294). -/
def execBit_3_H (s : State) : Result := bitTest 3 (.reg .h) s

/-- `BIT 3,L` (R294). -/
def execBit_3_L (s : State) : Result := bitTest 3 (.reg .l) s

/-- `BIT 3,(HL)` (R295). -/
def execBit_3_atHL (s : State) : Result := bitTest 3 (.ind .hl) s

/-- `BIT 3,A` (R294). -/
def execBit_3_A (s : State) : Result := bitTest 3 (.reg .a) s

/-- `BIT 4,B` (R294). -/
def execBit_4_B (s : State) : Result := bitTest 4 (.reg .b) s

/-- `BIT 4,C` (R294). -/
def execBit_4_C (s : State) : Result := bitTest 4 (.reg .c) s

/-- `BIT 4,D` (R294). -/
def execBit_4_D (s : State) : Result := bitTest 4 (.reg .d) s

/-- `BIT 4,E` (R294). -/
def execBit_4_E (s : State) : Result := bitTest 4 (.reg .e) s

/-- `BIT 4,H` (R294). -/
def execBit_4_H (s : State) : Result := bitTest 4 (.reg .h) s

/-- `BIT 4,L` (R294). -/
def execBit_4_L (s : State) : Result := bitTest 4 (.reg .l) s

/-- `BIT 4,(HL)` (R295). -/
def execBit_4_atHL (s : State) : Result := bitTest 4 (.ind .hl) s

/-- `BIT 4,A` (R294). -/
def execBit_4_A (s : State) : Result := bitTest 4 (.reg .a) s

/-- `BIT 5,B` (R294). -/
def execBit_5_B (s : State) : Result := bitTest 5 (.reg .b) s

/-- `BIT 5,C` (R294). -/
def execBit_5_C (s : State) : Result := bitTest 5 (.reg .c) s

/-- `BIT 5,D` (R294). -/
def execBit_5_D (s : State) : Result := bitTest 5 (.reg .d) s

/-- `BIT 5,E` (R294). -/
def execBit_5_E (s : State) : Result := bitTest 5 (.reg .e) s

/-- `BIT 5,H` (R294). -/
def execBit_5_H (s : State) : Result := bitTest 5 (.reg .h) s

/-- `BIT 5,L` (R294). -/
def execBit_5_L (s : State) : Result := bitTest 5 (.reg .l) s

/-- `BIT 5,(HL)` (R295). -/
def execBit_5_atHL (s : State) : Result := bitTest 5 (.ind .hl) s

/-- `BIT 5,A` (R294). -/
def execBit_5_A (s : State) : Result := bitTest 5 (.reg .a) s

/-- `BIT 6,B` (R294). -/
def execBit_6_B (s : State) : Result := bitTest 6 (.reg .b) s

/-- `BIT 6,C` (R294). -/
def execBit_6_C (s : State) : Result := bitTest 6 (.reg .c) s

/-- `BIT 6,D` (R294). -/
def execBit_6_D (s : State) : Result := bitTest 6 (.reg .d) s

/-- `BIT 6,E` (R294). -/
def execBit_6_E (s : State) : Result := bitTest 6 (.reg .e) s

/-- `BIT 6,H` (R294). -/
def execBit_6_H (s : State) : Result := bitTest 6 (.reg .h) s

/-- `BIT 6,L` (R294). -/
def execBit_6_L (s : State) : Result := bitTest 6 (.reg .l) s

/-- `BIT 6,(HL)` (R295). -/
def execBit_6_atHL (s : State) : Result := bitTest 6 (.ind .hl) s

/-- `BIT 6,A` (R294). -/
def execBit_6_A (s : State) : Result := bitTest 6 (.reg .a) s

/-- `BIT 7,B` (R294). -/
def execBit_7_B (s : State) : Result := bitTest 7 (.reg .b) s

/-- `BIT 7,C` (R294). -/
def execBit_7_C (s : State) : Result := bitTest 7 (.reg .c) s

/-- `BIT 7,D` (R294). -/
def execBit_7_D (s : State) : Result := bitTest 7 (.reg .d) s

/-- `BIT 7,E` (R294). -/
def execBit_7_E (s : State) : Result := bitTest 7 (.reg .e) s

/-- `BIT 7,H` (R294). -/
def execBit_7_H (s : State) : Result := bitTest 7 (.reg .h) s

/-- `BIT 7,L` (R294). -/
def execBit_7_L (s : State) : Result := bitTest 7 (.reg .l) s

/-- `BIT 7,(HL)` (R295). -/
def execBit_7_atHL (s : State) : Result := bitTest 7 (.ind .hl) s

/-- `BIT 7,A` (R294). -/
def execBit_7_A (s : State) : Result := bitTest 7 (.reg .a) s

end Sys2Proof.Machine
end

