-- ==== Sys2Proof/Machine/Stack.lean ====
section
/-! DEFINITION. The meanings of PUSH (48_push.md R311). -/

namespace Sys2Proof.Machine

/-- `PUSH BC` (R311). -/
def execPush_BC (s : State) : Result := push .bc s

/-- `PUSH DE` (R311). -/
def execPush_DE (s : State) : Result := push .de s

/-- `PUSH HL` (R311). -/
def execPush_HL (s : State) : Result := push .hl s

/-- `PUSH AF` (R311). -/
def execPush_AF (s : State) : Result := push .af s

end Sys2Proof.Machine
end

