-- ==== Sys2Proof/Machine/Fetch.lean ====
section
/-! DEFINITION. From a latched opcode byte to the instruction that runs: Decode (40_controller.md R142) in the opcode
tables, the immediate bytes (R163, R164), the CB prefix (R146), and the meaning. Then the operation that supplies the
environment's contents from outside, which no instruction does. -/

namespace Sys2Proof.Machine

/-- Decode the latched pair (R142) and take the instruction's immediate bytes at PC, in order (R101, R109). -/
def takeOperands (s : State) : Instr × State :=
  match entryIn s.cfg.implemented s.cb s.opcode with
  | .absent => (.unimplemented s.opcode s.cb, s)
  | .plain i => (i, s)
  | .imm8 f =>
    let n := imm8 s
    (f n.1, n.2)
  | .imm16 f =>
    let nn := imm16 s
    (f nn.1, nn.2)

/-- Decode and run the latched pair, once. -/
def runDecoded (s : State) : Result :=
  let d := takeOperands s
  exec d.1 d.2

/-- The step after Fetch (R145): decode, do R146 first if the handler is PREFIX CB, then the handler. -/
def decodeAndExecute (s : State) : Result :=
  let d := takeOperands s
  if d.1 = .prefix_CB then
    match exec .prefix_CB d.2 with
    | .next s2 => runDecoded s2
    | .fault r => .fault r
    | .refused r => .refused r
  else exec d.1 d.2

/-! ## Supplying the environment's contents -/

/-- The contents of a boot overlay before any byte is supplied: 0xFF everywhere. -/
def blankRom : BootRom := []

/-- An environment that bytes can be placed in and that the model accepts: `RefBus` with a `BootRom`, blank if there was
none; `FlatBus` as it is; nothing is known of the cells of an external environment, so `FlatBus` stands in for it. -/
def Env.placeable (e : Env) : Env :=
  match e.cfg.bus with
  | .ref =>
    match e.cfg.bootRom with
    | some _ => e
    | none => { e with cfg := { e.cfg with bootRom := some blankRom } }
  | .flat => e
  | .external => { e with cfg := { e.cfg with bus := .flat } }

/-- Whether a placed byte is what a read of the address returns: the overlay answers it, or RAM backs it. -/
def Env.holds (e : Env) (a : Addr) : Bool := e.overlaid a || (e.ramCell a).isSome

/-- Put one byte where a read of the address finds it: in the `BootRom`, or in the RAM cell. -/
def Env.place (e : Env) (a : Addr) (v : Byte) : Env :=
  if e.overlaid a then
    { e with cfg := { e.cfg with bootRom := some (Memory.set (e.cfg.bootRom.getD blankRom) a.toNat v) } }
  else
    match e.ramCell a with
    | some k => { e with mem := e.mem.set k v }
    | none => e

/-- Put bytes into the environment from an address on, as the host does when it supplies a boot overlay or a start state
(R6, R369); addresses wrap. -/
def Env.load (e : Env) (a : Addr) : List Byte → Env
  | [] => e
  | v :: rest => Env.load (e.place a v) (a + 1) rest

/-- Where an instruction of three bytes can be placed so that the next fetch reads it: at PC if the environment has cells
there, else at the start of working RAM. -/
def placeFor (e : Env) (pc : Addr) : Addr :=
  if e.holds pc && e.holds (pc + 1) && e.holds (pc + 2) then pc else 0xC000#16

/-- The state with bytes placed where the next step fetches, at an instruction boundary and not faulted. -/
def placeBytes (s : State) (bytes : List Byte) : State :=
  let e := s.env.placeable
  let a := placeFor e s.pc
  { s.idle with phase := .fetch, fault := none, pc := a, env := e.load a bytes }

/-- The three bytes of a table word, lowest address first, every bit from `nbits` up 0. -/
def wordBytes (nbits w : Nat) : List Byte :=
  let v := w % 2 ^ nbits
  [BitVec.ofNat 8 v, BitVec.ofNat 8 (v / 256), BitVec.ofNat 8 (v / 65536)]

end Sys2Proof.Machine
end

