-- ==== Sys2Proof/Machine/Tick.lean ====
section
/-! DEFINITION. The tick level (00_scope.md R8): one controller call is one M-cycle and makes at most one bus access
(40_controller.md R140, R147). A handler is "a linear sequence of named stages" over its operand operators (R143); a
stage that uses the bus takes a tick, a register-only stage runs in the call that made it possible (R147).

The operators (41_operands.md R161 to R172) keep their progress in `stage`, `scratch8` and `scratch16` (R34): a byte read
and the low byte of an address in `scratch8`, an assembled address or a 16-bit datum in `scratch16` (R164, R169). -/

namespace Sys2Proof.Machine

/-! ## Stages -/

/-- Where a data access goes (R166 to R171, R310). -/
inductive Place where
  | ptr (p : Ptr)
  | hlInc
  | hlDec
  | highC
  /-- `0xFF00 | n`, `n` in `scratch8` (R170). -/
  | highScratch
  /-- The address in `scratch16` (R169, R171). -/
  | abs
  /-- The address after it, which wraps (R171). -/
  | absNext
  /-- SP minus one; SP moves there in the same tick (R310). -/
  | stack
deriving DecidableEq, Repr

/-- The byte computations of the read-modify-write handlers. -/
inductive Modify where
  | inc | dec | rl
deriving DecidableEq, Repr

/-- The value of a 16-bit write: what the caller of the operator gives it (R160), or, in a handler, where its source operand
leaves it. -/
inductive Datum16 where
  | word (w : Word)
  | pair (rr : Reg16)
  | scratch
deriving DecidableEq, Repr

/-- What a store or a register write writes. -/
inductive Datum where
  /-- What the caller of the operator gives it (R160). -/
  | byte (v : Byte)
  | reg (r : Reg8)
  | scratch
  /-- The byte in `scratch8` after the computation, whose flags are written in the same tick (`ModifyCall.write`). -/
  | modified (m : Modify)
  | lo (d : Datum16)
  | hi (d : Datum16)
deriving DecidableEq, Repr

/-- The stages of the handlers. -/
inductive Stage where
  /-- `Imm8`: the byte at PC to `scratch8` (R163). -/
  | immByte
  /-- The second byte of `Imm16`: `scratch16` is the byte at PC over `scratch8` (R164). -/
  | immHigh
  /-- The byte after 0xCB (R146). -/
  | cbByte
  /-- A data read to `scratch8`. -/
  | load (pl : Place)
  /-- The second data read of `Direct16`: `scratch16` is the byte read over `scratch8` (R171). -/
  | loadHigh (pl : Place)
  /-- A data write. -/
  | store (pl : Place) (d : Datum)
  | regRead (r : Reg8)
  | regWrite (r : Reg8) (d : Datum)
  | pairRead (rr : Reg16)
  | pairWrite (rr : Reg16) (d : Datum16)
  | pairUp
  | pairDown
  | compareA
  /-- The computation of a read-modify-write handler on `scratch8`, with its flags (`ModifyCall.read`). -/
  | compute (m : Modify)
  | testBit (b : BitVec 3)
  /-- The jump of `JR cc,e`: an internal tick if the condition holds, nothing otherwise (R321). -/
  | jump (cc : Cond)
  /-- A write to an immediate (R165). -/
  | misuse
deriving DecidableEq, Repr

/-- The address of a data access, from the state at the tick of the access (R173). -/
def Place.addr (s : State) : Place → Addr
  | .ptr p => s.reg16 (ptrReg p)
  | .hlInc => s.reg16 .hl
  | .hlDec => s.reg16 .hl
  | .highC => highPage s.c
  | .highScratch => highPage s.scratch8
  | .abs => s.scratch16
  | .absNext => s.scratch16 + 1
  | .stack => s.sp - 1

/-- The register an access moves, in the same tick (R167, R310). -/
def Place.after (pl : Place) (s : State) : State :=
  match pl with
  | .hlInc => s.setReg16 .hl (s.reg16 .hl + 1)
  | .hlDec => s.setReg16 .hl (s.reg16 .hl - 1)
  | .stack => { s with sp := s.sp - 1 }
  | _ => s

/-- The computation on a byte and the flag register. -/
def Modify.run : Modify → Byte → Byte → Byte × Byte
  | .inc => inc8
  | .dec => dec8
  | .rl => rl8

/-- The word a 16-bit write writes, a register's value being the one at the tick of the write (R173). -/
def Datum16.value (s : State) : Datum16 → Word
  | .word w => w
  | .pair rr => s.reg16 rr
  | .scratch => s.scratch16

/-- The byte written and the flag register after it. -/
def Datum.value (s : State) : Datum → Byte × Byte
  | .byte v => (v, s.f)
  | .reg r => (s.reg8 r, s.f)
  | .scratch => (s.scratch8, s.f)
  | .modified m => m.run s.scratch8 s.f
  | .lo d => (lo8 (d.value s), s.f)
  | .hi d => (hi8 (d.value s), s.f)

/-- Whether a stage takes a tick: a bus access, or the internal tick of a taken JR (R147). -/
def Stage.needsTick (s : State) : Stage → Bool
  | .immByte => true
  | .immHigh => true
  | .cbByte => true
  | .load _ => true
  | .loadHigh _ => true
  | .store _ _ => true
  | .jump cc => condHolds cc s.f
  | _ => false

/-- One stage. At most one bus access. -/
def Stage.run (st : Stage) (s : State) : State :=
  match st with
  | .immByte =>
    let n := imm8 s
    { n.2 with scratch8 := n.1 }
  | .immHigh =>
    let n := imm8 s
    { n.2 with scratch16 := join n.1 s.scratch8 }
  | .cbByte => fetchCb s
  | .load pl =>
    let v := memRead (pl.addr s) s
    { pl.after v.2 with scratch8 := v.1 }
  | .loadHigh pl =>
    let v := memRead (pl.addr s) s
    { pl.after v.2 with scratch16 := join v.1 s.scratch8 }
  | .store pl d =>
    let v := d.value s
    pl.after { memWrite (pl.addr s) v.1 s with f := v.2 }
  | .regRead r => { s with scratch8 := s.reg8 r }
  | .regWrite r d =>
    let v := d.value s
    { s.setReg8 r v.1 with f := v.2 }
  | .pairRead rr => { s with scratch16 := s.reg16 rr }
  | .pairWrite rr d => s.setReg16 rr (d.value s)
  | .pairUp => { s with scratch16 := s.scratch16 + 1 }
  | .pairDown => { s with scratch16 := s.scratch16 - 1 }
  | .compareA => { s with f := cpFlags s.a s.scratch8 s.f }
  | .compute m =>
    let r := m.run s.scratch8 s.f
    { s with scratch8 := r.1, f := r.2 }
  | .testBit b => { s with f := bitFlags b s.scratch8 s.f }
  | .jump cc => if condHolds cc s.f then { s with pc := s.pc + sext16 s.scratch8 } else s
  | .misuse => enterFault .protocolMisuse s.opcode s.cb s

/-! ## Operators -/

/-- The stages of an 8-bit read; the value ends in `scratch8`. -/
def read8Stages : Kind8 → List Stage
  | .reg r => [.regRead r]
  | .imm8 => [.immByte]
  | .ind p => [.load (.ptr p)]
  | .indInc => [.load .hlInc]
  | .indDec => [.load .hlDec]
  | .highC => [.load .highC]
  | .direct8Abs => [.immByte, .immHigh, .load .abs]
  | .direct8High => [.immByte, .load .highScratch]

/-- The stages of an 8-bit write. -/
def write8Stages (d : Datum) : Kind8 → List Stage
  | .reg r => [.regWrite r d]
  | .imm8 => [.misuse]
  | .ind p => [.store (.ptr p) d]
  | .indInc => [.store .hlInc d]
  | .indDec => [.store .hlDec d]
  | .highC => [.store .highC d]
  | .direct8Abs => [.immByte, .immHigh, .store .abs d]
  | .direct8High => [.immByte, .store .highScratch d]

/-- The stages of a 16-bit read; the value ends in `scratch16`. -/
def read16Stages : Kind16 → List Stage
  | .reg16 rr => [.pairRead rr]
  | .imm16 => [.immByte, .immHigh]
  | .direct16 => [.immByte, .immHigh, .load .abs, .loadHigh .absNext]

/-- The stages of a 16-bit write: a pair takes both halves at once (R162), memory the low byte first (R171). -/
def write16Stages (d : Datum16) : Kind16 → List Stage
  | .reg16 rr => [.pairWrite rr d]
  | .imm16 => [.misuse]
  | .direct16 => [.immByte, .immHigh, .store .abs (.lo d), .store .absNext (.hi d)]

/-- The datum of an 8-bit write: a register is read at the tick of the write (R173), since the address bytes of the
destination pass through the scratch fields; any other source has left its byte in `scratch8`. -/
def datum8 : Kind8 → Datum
  | .reg r => .reg r
  | _ => .scratch

/-- The datum of a 16-bit write, by its source, for the same reason. -/
def datum16 : Kind16 → Datum16
  | .reg16 rr => .pair rr
  | _ => .scratch

/-- "an explicit two-case result: `Pending` vs `Ready(value)`" (R172). -/
inductive Answer (α : Type) where
  | pending
  | ready (v : α)
deriving DecidableEq, Repr

/-- One micro-step of an operator whose first `done` micro-steps are made (R172): pending until its last stage. R172 speaks of
calls of an operator that is not yet complete; that a call of a complete one answers ready again, with the value as the
scratch fields hold it, and does nothing, is the model's choice. So is that an operator whose last stage raises
`ProtocolMisuse` (R165) answers ready, beside the state in phase Faulted: R172 gives a write the answers pending and done
alone. (DESIGN CHOICE, notes/assumptions 23.) -/
def operatorTick {α : Type} (stages : List Stage) (value : State → α) (done : Nat) (s : State) : Answer α × State :=
  match stages.drop done with
  | [] => (.ready (value s), s)
  | [last] => (.ready (value (last.run s)), last.run s)
  | st :: _ => (.pending, st.run s)

/-- `read(bus) -> value | pending` of an 8-bit operand (R160). -/
def read8Tick (k : Kind8) (done : Nat) (s : State) : Answer Byte × State :=
  operatorTick (read8Stages k) (fun s => s.scratch8) done s

/-- `write(bus, value) -> done | pending` of an 8-bit operand (R160); `done` is `.ready ()`. -/
def write8Tick (k : Kind8) (v : Byte) (done : Nat) (s : State) : Answer Unit × State :=
  operatorTick (write8Stages (.byte v) k) (fun _ => ()) done s

/-- `read` of a 16-bit operand (R160). -/
def read16Tick (k : Kind16) (done : Nat) (s : State) : Answer Word × State :=
  operatorTick (read16Stages k) (fun s => s.scratch16) done s

/-- `write` of a 16-bit operand (R160). -/
def write16Tick (k : Kind16) (w : Word) (done : Nat) (s : State) : Answer Unit × State :=
  operatorTick (write16Stages (.word w) k) (fun _ => ()) done s

/-! ## Handlers -/

/-- The stages after the read of INC, DEC and RL: the computation is a register-only stage, which runs ahead in the call of
the read (R147), or it is part of the write (R368). -/
def modifyStages (mc : ModifyCall) (m : Modify) (k : Kind8) : List Stage :=
  match mc with
  | .read => .compute m :: write8Stages .scratch k
  | .write => write8Stages (.modified m) k

/-- The stages of a handler (R143), numbered from 0 by their place in this list; "fetch next" stands after the last. That the
list is cut into these micro-steps, the register-only ones counted among them, and so which number `stage` holds between two
calls, is the model's choice (DESIGN CHOICE, notes/assumptions 22): R34 says "small integer" and N6 of 91_not_in_source.md
that the source gives the progress marker no encoding. -/
def handlerStages (mc : ModifyCall) : Handler → List Stage
  | .idle => []
  | .nop => []
  | .prefixCb => [.cbByte]
  | .ld8 dst src => read8Stages src ++ write8Stages (datum8 src) dst
  | .ld16 dst src => read16Stages src ++ write16Stages (datum16 src) dst
  | .cp src => read8Stages src ++ [.compareA]
  | .inc k => read8Stages k ++ modifyStages mc .inc k
  | .dec k => read8Stages k ++ modifyStages mc .dec k
  | .inc16 rr => [.pairRead rr, .pairUp, .pairWrite rr .scratch]
  | .dec16 rr => [.pairRead rr, .pairDown, .pairWrite rr .scratch]
  | .rl k => read8Stages k ++ modifyStages mc .rl k
  | .bit b k => read8Stages k ++ [.testBit b]
  | .push rr => [.pairRead rr, .store .stack (.hi .scratch), .store .stack (.lo .scratch)]
  | .jr cc => [.immByte, .jump cc]

/-- The stages of a handler under the core's schedule. -/
def State.stagesOf (s : State) (h : Handler) : List Stage := handlerStages s.cfg.modifyCall h

/-- The stages of the instruction in flight that are still to do. -/
def State.pending (s : State) : List Stage := (s.stagesOf s.handler).drop s.stage

/-! ## The controller -/

/-- One stage done: the index of the next moves on, by one for a register-only stage too (notes/assumptions 22). -/
def advance (st : Stage) (s : State) : State := { st.run s with stage := s.stage + 1 }

/-- `run_ahead()` (R147): do the stages that need no tick; after the last, "fetch next". -/
def runAhead : List Stage → State → State
  | [], s => complete s
  | st :: rest, s =>
    if st.needsTick s then s
    else if st = .misuse then st.run s
    else runAhead rest (advance st s)

/-- Decode (R142) and `run_ahead()`: dispatch on the latched pair, by its fields. -/
def enterHandler (s : State) : State :=
  match dispatch s.cfg.implemented s.cb s.opcode with
  | none => enterFault .unimplementedOpcode s.opcode s.cb s
  | some h => runAhead (s.stagesOf h) { s with phase := .execute, handler := h, stage := 0 }

/-- `tick()` (R140, R147): one M-cycle. A faulted core does nothing (R144). In states that no call leaves, for which R147 has
no case, what the call does is the model's choice (DESIGN CHOICE, notes/assumptions 24): from Decode, which is never the
phase between two calls (R35), it decodes the latched pair and runs ahead; from Execute with no stage pending it is "fetch
next"; from Execute with a register-only stage pending it does that stage, with no bus access, and runs ahead. -/
def tick (s : State) : State :=
  match s.phase with
  | .faulted => s
  | .fetch => enterHandler (fetch s)
  | .decode => enterHandler s
  | .execute =>
    match s.pending with
    | [] => complete s
    | .cbByte :: _ => enterHandler (fetchCb s)
    | st :: rest => if st = .misuse then st.run s else runAhead rest (advance st s)

/-- `n` calls of the controller. -/
def ticks : Nat → State → State
  | 0, s => s
  | n + 1, s => ticks n (tick s)

/-! ## A step from the middle of an instruction -/

/-- The rest of a handler's stages, all of them, then "fetch next". -/
def runStages : List Stage → State → Result
  | [], s => .next (complete s)
  | st :: rest, s => if st = .misuse then raiseMisuse s else runStages rest (st.run s)

/-- Finish the instruction in flight: operators "resume from saved progress" (R37, R172). That a step from inside an
instruction does this, and with no stage pending is "fetch next", is the model's choice (DESIGN CHOICE,
notes/assumptions 17). -/
def resume (s : State) : Result :=
  match s.pending with
  | .cbByte :: _ => runDecoded (fetchCb s)
  | stages => runStages stages s

end Sys2Proof.Machine
end

