-- ==== Sys2Proof/Machine/Step.lean ====
section
/-! DEFINITION. The instruction-level step (40_controller.md R145), the machine's one step, and the placing of an
instruction where the next step fetches it. -/

namespace Sys2Proof.Machine

/-- The outcome, if the model accepts the environment's configuration; its refusal otherwise (U8). -/
def ifAccepted (s : State) (r : Result) : Result :=
  if s.env.cfg.accepted then r else .refused .bootRomMissing

/-- One step. From an instruction boundary it is R145: Fetch, Decode, the CB prefix if there is one, the handler, back to
Fetch. A faulted core makes no step (R144, R145). A state inside an instruction, which only the tick level makes, goes on
to the end of that instruction (notes/assumptions 17). A `RefBus` whose `BootRom` is not supplied is refused. -/
def step (s : State) : Host.Outcome State Fault Refusal :=
  match s.phase with
  | .fetch => ifAccepted s (decodeAndExecute (fetch s))
  | .decode => ifAccepted s (decodeAndExecute s)
  | .execute => ifAccepted s (resume s)
  | .faulted => .fault (.alreadyFaulted s)

/-- The state with the instruction of a table word stored where `step` fetches next. At reset that is the boot overlay at
0x0000: the word and blank bytes after it are then the `BootRom` that the host supplies (notes/assumptions 4 and 19). -/
def State.withFetchWord (s : State) (nbits w : Nat) : State := placeBytes s (wordBytes nbits w)

end Sys2Proof.Machine
end

