-- ==== Sys2Proof/Safety.lean ====
section
/-! DEFINITION. What claims call a good state and a safe run: an instruction boundary, the invariant of the machine, a
step that goes on, and a run that does not fault. -/

namespace Sys2Proof.Machine

/-- An instruction boundary (00_scope.md R18): the controller is in Fetch and nothing is in flight (10_state.md R36). -/
abbrev State.AtBoundary (s : State) : Prop :=
  s.phase = .fetch ∧ s.handler = .idle ∧ s.stage = 0 ∧ s.scratch8 = 0 ∧ s.scratch16 = 0

/-- The invariant of the machine: F[3:0] = 0 (R24); memory is canonical; a fault record is present exactly in phase
Faulted (R34, R38). -/
abbrev State.Inv (s : State) : Prop :=
  nibble s.f = 0 ∧ s.env.mem.wf = true ∧ (s.phase = .faulted ↔ s.fault.isSome = true)

/-- The state a fault stops in. -/
def Fault.state : Fault → State
  | .unimplementedOpcode t => t
  | .protocolMisuse t => t
  | .alreadyFaulted t => t

/-- A safe state: the next step answers a next state. -/
def State.Safe (s : State) : Prop := ∃ t, step s = .next t

/-- A safe run: `k` steps, none of which faults. -/
def State.SafeFor (s : State) (k : Nat) : Prop := ∃ t, Host.Core.run Sys2Proof.core k s = .next t

end Sys2Proof.Machine
end

