-- ==== Sys2Proof/WellFormed.lean ====
section
/-! DEFINITION. Which terms of `Instr` stand for words of the machine, under a configured set `Implemented` (R6).

Every immediate may hold every value, every register, condition and bit number is a constructor's own, and all masks of
the opcode table are 0xFF (30_encoding.md R118), so the checks are on the pair of the opcode byte and the CB flag alone. The
lists are those of R113, written from its text, not from the decoder. -/

namespace Sys2Proof

/-- Whether a number lies in one of the ranges, both ends included. -/
def inRanges (ranges : List (Nat × Nat)) (n : Nat) : Bool :=
  ranges.any fun r => decide (r.1 ≤ n) && decide (n ≤ r.2)

/-- The 122 base-table values without a handler (R113). -/
def unimplementedBase : List (Nat × Nat) :=
  [(0x07, 0x07), (0x09, 0x09), (0x0F, 0x0F), (0x10, 0x10), (0x17, 0x17), (0x18, 0x18), (0x19, 0x19), (0x1F, 0x1F),
   (0x27, 0x27), (0x29, 0x29), (0x2F, 0x2F), (0x37, 0x37), (0x39, 0x39), (0x3F, 0x3F), (0x76, 0x76), (0x80, 0xB7)]
  ++
  [(0xC0, 0xC4), (0xC6, 0xCA), (0xCC, 0xD4), (0xD6, 0xDF), (0xE1, 0xE1), (0xE3, 0xE3), (0xE4, 0xE4), (0xE6, 0xE9),
   (0xEB, 0xEF), (0xF1, 0xF1), (0xF3, 0xF3), (0xF4, 0xF4), (0xF6, 0xF6), (0xF7, 0xF7), (0xF8, 0xF8), (0xFB, 0xFB),
   (0xFC, 0xFC), (0xFD, 0xFD), (0xFF, 0xFF)]

/-- The 184 CB-table values without a handler (R113). -/
def unimplementedCb : List (Nat × Nat) :=
  [(0x00, 0x0F), (0x18, 0x3F), (0x80, 0xFF)]

/-- Whether a rule gives the pair of an opcode byte and the CB flag a handler: the set of R100, from R113. -/
def implemented (opcode : Byte) (cb : Bool) : Bool :=
  !inRanges (if cb then unimplementedCb else unimplementedBase) opcode.toNat

/-- Whether Decode finds a handler for the pair (R142): it is in the configured set, and a rule gives it one. -/
def hasHandler (m : Implemented) (opcode : Byte) (cb : Bool) : Bool :=
  m.has opcode cb && implemented opcode cb

/-- The well-formed instructions under a configured set. An `unimplemented` term names a pair without a handler; every
other term's pair has one; and a CB-table pair can be reached, so the prefix has one. -/
def Instr.wellFormedIn (m : Implemented) (i : Instr) : Bool :=
  (!i.isCb || hasHandler m 0xCB false) &&
    match i with
    | .unimplemented opcode cb => !hasHandler m opcode cb
    | i => hasHandler m i.opcode i.isCb

/-- The well-formed instructions under the default set (R100). -/
def Instr.wellFormed (i : Instr) : Bool := i.wellFormedIn .default

end Sys2Proof
end

