-- ==== Sys2Proof/Certificates/Slice0/Obligations.lean ====
section
/-! DEFINITION. The statements for the provers, from the numbered rules of the specification. First the vocabulary they are
written in; then the encoding, the controller, the environment, reset and the invariant, the register file and the flag
functions, every instruction rule, the rules about the whole machine, and the tick level. -/

namespace Sys2Proof.Machine

/-! ## Vocabulary -/

/-- The environment after reads at these addresses, in order. -/
def readAll (e : Env) : List Addr → Env
  | [] => e
  | a :: rest => readAll (e.read a).2 rest

/-- The addresses of `n` bytes from an address on; addresses wrap. -/
def addrsFrom (a : Addr) : Nat → List Addr
  | 0 => []
  | n + 1 => a :: addrsFrom (a + 1) n

/-- The bytes that `n` reads from an address on return, one after another. -/
def bytesAt (e : Env) (a : Addr) : Nat → List Byte
  | 0 => []
  | n + 1 => (e.read a).1 :: bytesAt (e.read a).2 (a + 1) n

/-- The bus events of reading bytes from an address on. -/
def readEvents (a : Addr) : List Byte → List BusEvent
  | [] => []
  | v :: rest => .rd a v :: readEvents (a + 1) rest

/-- The state is at a Fetch, its configuration is accepted, the instruction is well formed under its `Implemented`, and the
bytes at PC are those of the instruction. -/
def Fetches (i : Instr) (s : State) : Prop :=
  s.phase = .fetch ∧ s.env.cfg.accepted = true ∧ i.wellFormedIn s.cfg.implemented = true ∧
  bytesAt s.env s.pc (encode i).length = encode i

/-- The state after all bytes of an instruction are taken from the stream: PC past them, the opcode byte and the CB flag
latched, the reads recorded. This is where a meaning starts. -/
def afterFetch (i : Instr) (s : State) : State :=
  { s with
    opcode := i.opcode
    cb := i.isCb
    fetchAddr := if i.isCb then s.pc + 1 else s.pc
    pc := s.pc + BitVec.ofNat 16 (encode i).length
    phase := .decode
    env := readAll s.env (addrsFrom s.pc (encode i).length)
    bus := readEvents s.pc (encode i) }

/-- The instruction completes: its meaning answers the next state, and so does a step that fetches it, in `n` M-cycles. -/
def RunsIn (n : Nat) (i : Instr) (s t : State) : Prop :=
  exec i s = .next t ∧ ∀ s0, Fetches i s0 → afterFetch i s0 = s → step s0 = .next t ∧ ticks n s0 = t

/-- What is kept by an instruction that writes no more than the named registers and flags: every other register, every
other flag, F[3:0], the latches, the fault field, both configurations; and it ends at a boundary. (That the scratch fields
are zero there is the model's choice, notes/assumptions 11.) -/
def Frame (regs : List Reg8) (flags : List Flag) (s t : State) : Prop :=
  (∀ r, r ∉ regs → t.reg8 r = s.reg8 r) ∧
  (∀ fl, fl ∉ flags → getFlag fl t.f = getFlag fl s.f) ∧
  nibble t.f = nibble s.f ∧
  t.opcode = s.opcode ∧ t.cb = s.cb ∧ t.fetchAddr = s.fetchAddr ∧ t.fault = s.fault ∧
  t.cfg = s.cfg ∧ t.env.cfg = s.env.cfg ∧ t.AtBoundary

/-- Nothing is stored; the environment is read at these addresses, in order, and no more happens to it: under `RefBus` and
`FlatBus` every address reads as before; memory and the latch are as before under any bus. -/
def KeepsMemory (reads : List Addr) (s t : State) : Prop :=
  t.env = readAll s.env reads ∧ t.env.mem = s.env.mem ∧ t.env.bootEn = s.env.bootEn ∧
  (s.env.cfg.bus ≠ .external → t.env = s.env ∧ ∀ a, t.env.peek a = s.env.peek a)

/-- The data accesses after the fetch are these events and no other. -/
def DataEvents (evs : List BusEvent) (s t : State) : Prop := t.bus = s.bus ++ evs

/-- Whether a write of `v` at `w` can change what a read of `a` returns: `a` reads the RAM cell that `w` writes (only
`a = w`, but for `WramMirror`), or the write clears the latch and `a` lies in the overlay. -/
def Reaches (e : Env) (w : Addr) (v : Byte) (a : Addr) : Prop :=
  (e.ramCell w ≠ none ∧ e.ramCell a = e.ramCell w) ∨ (e.disablesBoot w v = true ∧ e.overlaid a = true)

/-- The environment after writes in order. -/
def writeAll (e : Env) : List (Addr × Byte) → Env
  | [] => e
  | (a, v) :: rest => writeAll (e.write a v) rest

/-- After reads at these addresses exactly these bytes are written, in this order: the environment takes them; under `RefBus`
and `FlatBus` every address they do not reach reads as before; in a canonical memory each byte that lands in RAM reads
back. -/
def Stores (reads : List Addr) (ws : List (Addr × Byte)) (s t : State) : Prop :=
  t.env = writeAll (readAll s.env reads) ws ∧
  (s.env.cfg.bus ≠ .external → ∀ a, (∀ w ∈ ws, ¬Reaches s.env w.1 w.2 a) → t.env.peek a = s.env.peek a) ∧
  (s.env.mem.wf = true → ∀ w ∈ ws, s.env.ramCell w.1 ≠ none → ∀ a, s.env.ramCell a = s.env.ramCell w.1 →
    t.env.peek a = w.2)

/-- SP and PC as the fetch left them. -/
def KeepsPointers (s t : State) : Prop := t.sp = s.sp ∧ t.pc = s.pc

/-- An opcode byte from its fields x, y, z (30_encoding.md R102). -/
def fieldsXyz (x : BitVec 2) (y z : BitVec 3) : Byte := x ++ y ++ z

/-- An opcode byte from its fields x, p and a low digit (R102). -/
def fieldsXp (x p : BitVec 2) (low : BitVec 4) : Byte := x ++ p ++ low

/-- The opcode byte `001cc000` of JR (R103). -/
def fieldsJr (cc : BitVec 2) : Byte := 0b001#3 ++ cc ++ 0b000#3

/-- A list of bus events happened against an environment and left another: each read returned what the environment
answered at that moment, and each read and each write acted on it, once. -/
def Happened (e : Env) : List BusEvent → Env → Prop
  | [], e' => e' = e
  | .rd a v :: rest, e' => (e.read a).1 = v ∧ Happened (e.read a).2 rest e'
  | .wr a v :: rest, e' => Happened (e.write a v) rest e'

/-- Whether an instruction is a JR whose condition holds. -/
def jumpTaken (i : Instr) (f : Byte) : Bool :=
  match i with
  | .jr_NZ_e _ => condHolds .nz f
  | .jr_Z_e _ => condHolds .z f
  | .jr_NC_e _ => condHolds .nc f
  | .jr_C_e _ => condHolds .c f
  | _ => false

/-- The instructions that write a flag (10_state.md R28). -/
def WritesFlags (i : Instr) : Prop :=
  (∃ r, i = cpR r ∨ i = incR r ∨ i = decR r ∨ i = rlR r ∨ ∃ b, i = bitBR b r) ∨
  i = .cp_atHL ∨ (∃ n, i = .cp_n n) ∨ i = .inc_atHL ∨ i = .dec_atHL ∨ i = .rl_atHL ∨ ∃ b, i = bitBAtHL b

/-- The instructions that write the carry flag (R28). -/
def WritesCarry (i : Instr) : Prop :=
  (∃ r, i = cpR r ∨ i = rlR r) ∨ i = .cp_atHL ∨ (∃ n, i = .cp_n n) ∨ i = .rl_atHL

/-- The instructions that write SP (R31). -/
def WritesSp (i : Instr) : Prop :=
  (∃ nn, i = .ld_SP_nn nn) ∨ i = .ld_SP_HL ∨ i = .inc_SP ∨ i = .dec_SP ∨ ∃ pp, i = pushRr pp

end Sys2Proof.Machine

open Sys2Proof Sys2Proof.Machine

/-! ## The encoding -/

/-- R110, R111, R113: under every `Implemented`, every well-formed instruction decodes from its own bytes, with every
operand at every value, whatever bytes follow it. The prefix alone is the one that needs nothing after it. -/
def Obligations.DecodeEncodeRoundTrip : Prop :=
  ∀ (m : Implemented) (i : Instr), i.wellFormedIn m = true →
    decodeInstrIn m (encode i) = .ok (i, []) ∧
    (i ≠ .prefix_CB → ∀ rest, decodeInstrIn m (encode i ++ rest) = .ok (i, rest))

/-- R114, R118: under every `Implemented` decoding loses no byte and invents none: what it gives encodes to the bytes it
took, and is well formed. -/
def Obligations.DecodedBytesEncodeBack : Prop :=
  ∀ (m : Implemented) (bytes rest : List Byte) (i : Instr), decodeInstrIn m bytes = .ok (i, rest) →
    encode i ++ rest = bytes ∧ i.wellFormedIn m = true

/-- R6, R100, R113, R114, R142: under every `Implemented` the decode function is total: an opcode byte under either value
of the CB flag decodes to one instruction, which has that opcode byte and stands in that table, and which is
`unimplemented` exactly for the pairs outside the set or listed in R113; the controller's dispatch, which reads the fields of
the byte, finds a handler exactly for the others. The default set is all pairs R113 does not list, and those are 122 and 184
in number. (Which pairs: decision D1; notes/assumptions 8.) -/
def Obligations.EveryOpcodeDecodes : Prop :=
  (∀ (m : Implemented) (op b1 b2 : Byte) (cb : Bool) (rest : List Byte), ∃ i k, k ≤ 2 ∧
    decode m cb (op :: b1 :: b2 :: rest) = .ok (i, (b1 :: b2 :: rest).drop k) ∧ i.opcode = op ∧ i.isCb = cb ∧
    (i = .unimplemented op cb ↔ hasHandler m op cb = false)) ∧
  (∀ m op cb, (dispatch m cb op).isSome = hasHandler m op cb) ∧
  (∀ op cb, hasHandler .default op cb = implemented op cb) ∧
  ((List.range 256).filter fun n => !implemented (BitVec.ofNat 8 n) false).length = 122 ∧
  ((List.range 256).filter fun n => !implemented (BitVec.ofNat 8 n) true).length = 184

/-- R103 with R102, R104 to R108: the opcode byte of every format, by its fields. (Decision D12; notes/assumptions 8.)
-/
def Obligations.InstructionFormats : Prop :=
  (∀ dst r, encode (ldRR dst r) = [fieldsXyz 1 dst.field r.field]) ∧
  (∀ dst, encode (ldRAtHL dst) = [fieldsXyz 1 dst.field 6]) ∧
  (∀ r, encode (ldAtHLR r) = [fieldsXyz 1 6 r.field]) ∧
  (∀ dst n, encode (ldRN dst n) = [fieldsXyz 0 dst.field 6, n]) ∧
  (∀ n, encode (.ld_atHL_n n) = [fieldsXyz 0 6 6, n]) ∧
  (∀ pp nn, encode (ldRrNn pp nn) = [fieldsXp 0 pp 0b0001, lo8 nn, hi8 nn]) ∧
  (∀ dst, encode (incR dst) = [fieldsXyz 0 dst.field 4] ∧ encode (decR dst) = [fieldsXyz 0 dst.field 5]) ∧
  (encode .inc_atHL = [fieldsXyz 0 6 4] ∧ encode .dec_atHL = [fieldsXyz 0 6 5]) ∧
  (∀ pp, encode (incRr pp) = [fieldsXp 0 pp 0b0011] ∧ encode (decRr pp) = [fieldsXp 0 pp 0b1011]) ∧
  (∀ r, encode (cpR r) = [fieldsXyz 2 7 r.field]) ∧ encode .cp_atHL = [fieldsXyz 2 7 6] ∧
  (∀ pp, encode (pushRr pp) = [fieldsXp 3 pp 0b0101]) ∧
  (∀ cc e, encode (jrCc cc e) = [fieldsJr cc.field, e]) ∧
  encode .prefix_CB = [0b11001011] ∧
  (∀ r, encode (rlR r) = [0xCB, fieldsXyz 0 2 r.field]) ∧ encode .rl_atHL = [0xCB, fieldsXyz 0 2 6] ∧
  (∀ b r, encode (bitBR b r) = [0xCB, fieldsXyz 1 b r.field]) ∧
  (∀ b, encode (bitBAtHL b) = [0xCB, fieldsXyz 1 b 6]) ∧
  (encode .nop = [0x00] ∧ encode .ld_SP_HL = [0xF9]) ∧
  (encode .ld_atBC_A = [0x02] ∧ encode .ld_atDE_A = [0x12] ∧ encode .ld_atHLinc_A = [0x22] ∧
    encode .ld_atHLdec_A = [0x32] ∧ encode .ld_A_atBC = [0x0A] ∧ encode .ld_A_atDE = [0x1A] ∧
    encode .ld_A_atHLinc = [0x2A] ∧ encode .ld_A_atHLdec = [0x3A] ∧ encode .ld_atC_A = [0xE2] ∧
    encode .ld_A_atC = [0xF2]) ∧
  (∀ n, encode (.cp_n n) = [0xFE, n] ∧ encode (.ldh_atN_A n) = [0xE0, n] ∧ encode (.ldh_A_atN n) = [0xF0, n]) ∧
  (∀ nn, encode (.ld_atNN_A nn) = [0xEA, lo8 nn, hi8 nn] ∧ encode (.ld_A_atNN nn) = [0xFA, lo8 nn, hi8 nn] ∧
    encode (.ld_atNN_SP nn) = [0x08, lo8 nn, hi8 nn])

/-- Words written out from R103, R110 and R111 decode to the instructions they stand for: one of each family that R3 and R100
list (NOP, LD, LD16, CP, INC, DEC, INC16, DEC16, RL, BIT, PUSH, JR), and two without a handler. (Opcode numbers and fields:
decisions D1 and D12, notes/assumptions 8; the CB words: decision D5, notes/assumptions 10.) -/
def Obligations.WrittenWordsDecode : Prop :=
  decodeInstr [0b00000000] = .ok (.nop, []) ∧
  decodeInstr [0b01111000] = .ok (.ld_A_B, []) ∧
  decodeInstr [0b00000001, 0x34, 0x12] = .ok (.ld_BC_nn 0x1234, []) ∧
  decodeInstr [0b11111110, 0x3C] = .ok (.cp_n 0x3C, []) ∧
  decodeInstr [0b00001100] = .ok (.inc_C, []) ∧
  decodeInstr [0b00000101] = .ok (.dec_B, []) ∧
  decodeInstr [0b00000011] = .ok (.inc_BC, []) ∧
  decodeInstr [0b00001011] = .ok (.dec_BC, []) ∧
  decodeInstr [0b11001011, 0b00010001] = .ok (.rl_C, []) ∧
  decodeInstr [0b11001011, 0b01111100] = .ok (.bit_7_H, []) ∧
  decodeInstr [0b11110101] = .ok (.push_AF, []) ∧
  decodeInstr [0b00100000, 0xFD] = .ok (.jr_NZ_e 0xFD, []) ∧
  decodeInstr [0b01110110] = .ok (.unimplemented 0x76 false, []) ∧
  decodeInstr [0b11001011, 0b11001011] = .ok (.unimplemented 0xCB true, [])

/-! ## The controller -/

/-- R141: what Fetch does, and what it keeps. -/
def Obligations.FetchLatchesOpcode : Prop :=
  ∀ s : State,
    (fetch s).opcode = (s.env.read s.pc).1 ∧ (fetch s).fetchAddr = s.pc ∧ (fetch s).pc = s.pc + 1 ∧
    (fetch s).cb = false ∧ (fetch s).phase = .decode ∧ (fetch s).bus = [.rd s.pc (s.env.read s.pc).1] ∧
    (∀ r, (fetch s).reg8 r = s.reg8 r) ∧ (fetch s).f = s.f ∧ (fetch s).sp = s.sp ∧ (fetch s).cfg = s.cfg ∧
    KeepsMemory [s.pc] s (fetch s)

/-- R145: where the bytes at PC decode to an instruction, the step is its meaning after its bytes are taken. -/
def Obligations.StepRunsDecoded : Prop :=
  ∀ (s : State) (i : Instr) (rest : List Byte), s.phase = .fetch → s.env.cfg.accepted = true →
    decodeInstrIn s.cfg.implemented (bytesAt s.env s.pc 3) = .ok (i, rest) →
    i.wellFormedIn s.cfg.implemented = true ∧ Fetches i s ∧ step s = exec i (afterFetch i s)

/-- R146: the prefix latches the next byte, sets the CB flag and decodes again; a pair found there runs in the same
step, a pair without a handler faults with the second byte and its address. (Decision D5 of the specification;
notes/assumptions 10.) -/
def Obligations.PrefixCbSelectsSecondTable : Prop :=
  (∀ s : State, ∃ t, exec .prefix_CB s = .next t ∧ t.opcode = (s.env.read s.pc).1 ∧ t.fetchAddr = s.pc ∧
    t.pc = s.pc + 1 ∧ t.cb = true ∧ t.phase = .decode ∧ t.bus = s.bus ++ [.rd s.pc (s.env.read s.pc).1] ∧
    (∀ r, t.reg8 r = s.reg8 r) ∧ t.f = s.f ∧ t.sp = s.sp ∧ t.fault = s.fault ∧ t.cfg = s.cfg ∧ KeepsMemory [s.pc] s t) ∧
  (∀ (s : State) (op : Byte), s.phase = .fetch → s.env.cfg.accepted = true →
    hasHandler s.cfg.implemented 0xCB false = true → bytesAt s.env s.pc 2 = [0xCB, op] →
    (hasHandler s.cfg.implemented op true = true →
      ∃ i, i.isCb = true ∧ i.opcode = op ∧ step s = exec i (afterFetch i s) ∧
        ∃ t, step s = .next t ∧ t.pc = s.pc + 2 ∧ t.cb = true) ∧
    (hasHandler s.cfg.implemented op true = false →
      ∃ t, step s = .fault (.unimplementedOpcode t) ∧ t.pc = s.pc + 2 ∧
        t.fault = some ⟨.unimplementedOpcode, op, true, s.pc + 1⟩))

/-- R331: the meaning of a pair without a handler is the fault, whatever the state, with the record of the pair and of
the address its byte was read from. This instruction has no next state. -/
def Obligations.UnimplementedStops : Prop :=
  ∀ (op : Byte) (cb : Bool) (s : State), ∃ t, exec (.unimplemented op cb) s = .fault (.unimplementedOpcode t) ∧
    t.phase = .faulted ∧ t.fault = some ⟨.unimplementedOpcode, op, cb, s.fetchAddr⟩

/-- R335 (decision D7 of the specification; notes/assumptions 12): the state at the fault of a step: PC one past the
offending byte, the pair in `opcode` and `cb`, the record, and everything else as the previous instruction left it; no
bus access but the fetches. -/
def Obligations.FaultEntryIsPrecise : Prop :=
  ∀ (s : State) (op : Byte) (cb : Bool), s.phase = .fetch → s.env.cfg.accepted = true →
    hasHandler s.cfg.implemented op cb = false → (cb = true → hasHandler s.cfg.implemented 0xCB false = true) →
    bytesAt s.env s.pc (if cb then 2 else 1) = (if cb then [0xCB, op] else [op]) →
    ∃ t, step s = .fault (.unimplementedOpcode t) ∧ t.phase = .faulted ∧
      t.fault = some ⟨.unimplementedOpcode, op, cb, if cb then s.pc + 1 else s.pc⟩ ∧
      t.pc = (if cb then s.pc + 2 else s.pc + 1) ∧ t.opcode = op ∧ t.cb = cb ∧
      (∀ r, t.reg8 r = s.reg8 r) ∧ t.f = s.f ∧ t.sp = s.sp ∧ t.cfg = s.cfg ∧
      KeepsMemory (if cb then [s.pc, s.pc + 1] else [s.pc]) s t ∧
      t.bus = (if cb then [.rd s.pc 0xCB, .rd (s.pc + 1) op] else [.rd s.pc op])

/-- R144, R145: a faulted core does nothing for ever, and no later step exists. That a step asked of it all the same answers
the fault `alreadyFaulted` with the state unchanged is the model's choice (DESIGN CHOICE, notes/assumptions 12). -/
def Obligations.FaultedIsTerminal : Prop :=
  ∀ s : State, s.phase = .faulted → (∀ n, ticks n s = s) ∧ step s = .fault (.alreadyFaulted s)

/-- R100, R330, R331, R337: a step from a fetch, the configuration being accepted, answers a next state exactly if the
fetched pair has a handler; otherwise it is the unimplemented-opcode fault, never another fault and never a refusal. -/
def Obligations.StepCompletesIffImplemented : Prop :=
  ∀ (s : State) (b1 b2 : Byte), s.phase = .fetch → s.env.cfg.accepted = true → bytesAt s.env s.pc 2 = [b1, b2] →
    (s.Safe ↔ hasHandler s.cfg.implemented b1 false = true ∧
      (b1 = 0xCB → hasHandler s.cfg.implemented b2 true = true)) ∧
    (¬s.Safe → ∃ t, step s = .fault (.unimplementedOpcode t))

/-- U8 of 93_implementation_defined.md, "`refuse` a `RefBus` configuration without" `BootRom` (R6: "none, must be supplied"):
no step of a core that has not faulted runs there, and a step is refused there and nowhere else. That it is each step that is
refused is the model's choice (DESIGN CHOICE, notes/assumptions 4), and so is that a step asked of a core that has faulted
answers the fault first (DESIGN CHOICE, notes/assumptions 12). -/
def Obligations.RefBusNeedsBootRom : Prop :=
  (∀ s : State, s.phase ≠ .faulted → s.env.cfg.bus = .ref → s.env.cfg.bootRom = none →
    step s = .refused .bootRomMissing) ∧
  (∀ (s : State) (r : Refusal), step s = .refused r → s.env.cfg.bus = .ref ∧ s.env.cfg.bootRom = none)

/-- R165, R332: a write to an immediate operand raises the protocol-misuse fault; no instruction does it, from any
state, and no step from a fetch. That the record of that fault is the pair in flight and its address is DEDUCED by the model
from R38 (notes/assumptions 12); R332 leaves it unsaid. -/
def Obligations.NoInstructionWritesImmediate : Prop :=
  (∀ n v s, ∃ t, (Operand8.imm8 n).write v s = .fault (.protocolMisuse t) ∧ t.phase = .faulted ∧
    t.fault = some ⟨.protocolMisuse, s.opcode, s.cb, s.fetchAddr⟩) ∧
  (∀ nn w s, ∃ t, (Operand16.imm16 nn).write w s = .fault (.protocolMisuse t) ∧ t.phase = .faulted) ∧
  (∀ i s t, exec i s ≠ .fault (.protocolMisuse t)) ∧
  (∀ s t, s.phase = .fetch → step s ≠ .fault (.protocolMisuse t))

/-- R36, R143: a step that completes ends at an instruction boundary, in phase Fetch with nothing in flight. That the fields at
rest hold idle and zeros, the scratch fields among them, which U12 leaves open (DESIGN CHOICE, notes/assumptions 11), and that
a step from inside an instruction finishes it, where R145 defines a step from a boundary only (DESIGN CHOICE,
notes/assumptions 17), are the model's choices. -/
def Obligations.StepEndsAtBoundary : Prop :=
  ∀ s t : State, step s = .next t → t.AtBoundary

/-! ## The environment -/

/-- R70: what `RefBus` reads over its mapped ranges. (Decision D11; notes/assumptions 5 to 7.) -/
def Obligations.RefBusReads : Prop :=
  ∀ (e : Env) (a : Addr), e.cfg.bus = .ref →
    (a.toNat ≤ 0x00FF → e.bootEn = false → e.peek a = 0xFF) ∧
    (∀ rom, e.cfg.bootRom = some rom → a.toNat ≤ 0x00FF → e.bootEn = true → e.peek a = Memory.get rom a.toNat) ∧
    (0xC000 ≤ a.toNat → a.toNat ≤ 0xFDFF →
      e.peek a = e.mem.get (if e.cfg.wramMirror then 0xC000 + (a.toNat - 0xC000) % 0x2000 else a.toNat)) ∧
    (0xFF80 ≤ a.toNat → a.toNat ≤ 0xFFFE → e.peek a = e.mem.get a.toNat) ∧
    (e.read a).2 = e

/-- R69: unmapped addresses: reads return 0xFF, writes are no-ops, and an opcode fetched there faults. -/
def Obligations.UnmappedAddresses : Prop :=
  ∀ (e : Env) (a : Addr), e.cfg.bus = .ref →
    (0x0100 ≤ a.toNat ∧ a.toNat ≤ 0xBFFF ∨ 0xFE00 ≤ a.toNat ∧ a.toNat ≤ 0xFF4F ∨
      0xFF51 ≤ a.toNat ∧ a.toNat ≤ 0xFF7F ∨ a.toNat = 0xFFFF) →
    e.peek a = 0xFF ∧ (∀ v, e.write a v = e) ∧
    (∀ s : State, s.phase = .fetch → s.env = e → e.cfg.bootRom ≠ none → s.pc = a →
      ∃ t, step s = .fault (.unimplementedOpcode t) ∧ t.fault = some ⟨.unimplementedOpcode, 0xFF, false, a⟩)

/-- R68: the latch and the overlay: 0xFF50 reads 0xFF; a write to it clears the latch if `BootDisableOn` holds of the
value and does nothing else; a write to the overlay's range is dropped in both states; no step sets the latch, and a
step that clears it has written 0xFF50. (Decision D11; notes/assumptions 5.) -/
def Obligations.BootLatchAndOverlay : Prop :=
  (∀ (e : Env) (v : Byte), e.cfg.bus = .ref → e.peek 0xFF50 = 0xFF ∧
    e.write 0xFF50 v = (if e.cfg.bootDisableOn.getLsbD v.toNat then { e with bootEn := false } else e)) ∧
  (∀ (e : Env) (a : Addr) (v : Byte), e.cfg.bus = .ref → a.toNat ≤ 0x00FF → e.write a v = e) ∧
  (∀ s t : State, s.phase = .fetch → step s = .next t → t.env.bootEn = true → s.env.bootEn = true) ∧
  (∀ s t : State, s.phase = .fetch → step s = .next t → s.env.bootEn = true → t.env.bootEn = false →
    ∃ v, BusEvent.wr 0xFF50 v ∈ t.bus)

/-- R71 (decision D11 of the specification; notes/assumptions 7): `FlatBus`, 65536 byte cells: a read returns the
cell, a write stores in it and in no other, nothing else happens. -/
def Obligations.FlatBusCells : Prop :=
  ∀ (e : Env) (a b : Addr) (v : Byte), e.cfg.bus = .flat → e.mem.wf = true →
    e.peek a = e.mem.get a.toNat ∧ (e.read a).2 = e ∧ (e.write a v).peek b = (if b = a then v else e.peek b) ∧
    (e.write a v).bootEn = e.bootEn ∧ (e.write a v).cfg = e.cfg

/-- R74 (c) and R67, "Plain read/write": a byte written to working RAM or high RAM reads back; a write there changes
no address with another cell. -/
def Obligations.RamReadsBackWrites : Prop :=
  ∀ (e : Env) (a b : Addr) (v : Byte), e.cfg.bus = .ref → e.cfg.wramMirror = false → e.mem.wf = true →
    (0xC000 ≤ a.toNat ∧ a.toNat ≤ 0xFDFF ∨ 0xFF80 ≤ a.toNat ∧ a.toNat ≤ 0xFFFE) →
    (e.write a v).peek b = (if b = a then v else e.peek b)

/-- R61, R62, R74, R79: the recorded events are what happened on the bus, under any environment: each read returned what the
environment answered at that moment, and the environment after the step is what the reads and writes, each made once and in
order, made of the one before. -/
def Obligations.BusEventsAreWhatHappened : Prop :=
  ∀ s : State, s.phase = .fetch →
    (∀ t, step s = .next t → Happened s.env t.bus t.env) ∧
    (∀ t, step s = .fault (.unimplementedOpcode t) → Happened s.env t.bus t.env)

/-- R42, R6: no step changes the configuration of the core or of the environment. (Where it stands and what a step is from inside
an instruction are the model's: notes/assumptions 18 and 17.) -/
def Obligations.ConfigurationIsFixed : Prop :=
  ∀ s t : State, step s = .next t → t.cfg = s.cfg ∧ t.env.cfg = s.env.cfg

/-! ## Reset and the invariant -/

/-- R43, R360: what reset leaves, over every `RegInit`, every core configuration and every environment: PC 0, Fetch, nothing
in flight, no fault, F[3:0] zero, the registers of `RegInit`. The values are the specification's decision D3
(notes/assumptions 1 and 2). -/
def Obligations.ResetState : Prop :=
  (∀ (r : RegInit) (cfg : CoreConfig) (env : Env),
    let s := State.resetWith r cfg env
    s.pc = 0x0000 ∧ s.AtBoundary ∧ s.fault = none ∧ s.cb = false ∧ s.opcode = 0x00 ∧ s.a = r.a ∧ s.b = r.b ∧
    s.c = r.c ∧ s.d = r.d ∧ s.e = r.e ∧ s.h = r.h ∧ s.l = r.l ∧ s.sp = r.sp ∧ nibble s.f = 0 ∧
    s.f.extractLsb' 4 4 = r.flags ∧ s.cfg = cfg ∧ s.env = env ∧ s.bus = []) ∧
  State.reset = State.resetWith RegInit.zero CoreConfig.default (Env.reset Config.default) ∧
  (∀ r, State.reset.reg8 r = 0) ∧ State.reset.f = 0 ∧ State.reset.sp = 0 ∧ State.reset.env.bootEn = true

/-- The invariant holds after reset (R24, R43), for every `RegInit` and both configurations. -/
def Obligations.InvariantAtReset : Prop :=
  ∀ (r : RegInit) (core : CoreConfig) (cfg : Config), (State.resetWith r core (Env.reset cfg)).Inv

/-- R24 and the rest of the invariant: every step from a state that meets it, in whatever phase, ends in one that
does, also where it ends in a fault. (A step from inside an instruction finishes it by the model's choice:
notes/assumptions 17.) -/
def Obligations.StepKeepsInvariant : Prop :=
  ∀ s : State, s.Inv → (∀ t, step s = .next t → t.Inv) ∧ (∀ r, step s = .fault r → r.state.Inv)

/-- The same at the tick level: every M-cycle keeps the invariant. What a call does from a state that no call leaves (Decode;
Execute with no stage pending, or a register-only one) is the model's choice (DESIGN CHOICE, notes/assumptions 24). -/
def Obligations.TickKeepsInvariant : Prop :=
  ∀ s : State, s.Inv → (tick s).Inv

/-! ## Registers and flag functions -/

/-- R22, R23: the pairs are views, high byte first; a pair write writes both halves and no other register, and the AF
setter clears the low nibble of F. -/
def Obligations.PairViewsAndWrites : Prop :=
  ∀ (s : State) (w : Word),
    (hi8 (s.reg16 .af) = s.a ∧ lo8 (s.reg16 .af) = s.f) ∧ (hi8 (s.reg16 .bc) = s.b ∧ lo8 (s.reg16 .bc) = s.c) ∧
    (hi8 (s.reg16 .de) = s.d ∧ lo8 (s.reg16 .de) = s.e) ∧ (hi8 (s.reg16 .hl) = s.h ∧ lo8 (s.reg16 .hl) = s.l) ∧
    s.setReg16 .bc w = { s with b := hi8 w, c := lo8 w } ∧ s.setReg16 .de w = { s with d := hi8 w, e := lo8 w } ∧
    s.setReg16 .hl w = { s with h := hi8 w, l := lo8 w } ∧
    s.setReg16 .af w = { s with a := hi8 w, f := lo8 w &&& 0xF0 } ∧
    (∀ rr, rr ≠ .af → (s.setReg16 rr w).reg16 rr = w) ∧
    (s.setReg16 .af w).reg16 .af = w &&& 0xFFF0 ∧ nibble (s.setReg16 .af w).f = 0

/-- R25, R26, R27: the flags are bits 7 to 4 of F; a predicate reads its bit; a setter sets its bit and leaves every
other bit of F. The bit positions, in the first clause and in `Flag.pos`, are decision D2 of the specification, from general
knowledge (PRESUMED, notes/assumptions 9). -/
def Obligations.FlagPredicatesAndSetters : Prop :=
  (∀ f : Byte, getFlag .z f = f.getLsbD 7 ∧ getFlag .n f = f.getLsbD 6 ∧ getFlag .h f = f.getLsbD 5 ∧
    getFlag .c f = f.getLsbD 4) ∧
  (∀ (fl : Flag) (v : Bool) (f : Byte) (i : Nat), i < 8 →
    (setFlag fl v f).getLsbD i = if i = fl.pos then v else f.getLsbD i)

/-- R260: the flags of a compare. -/
def Obligations.CompareFlags : Prop :=
  ∀ a v f : Byte,
    getFlag .z (cpFlags a v f) = decide (a - v = 0) ∧ (getFlag .z (cpFlags a v f) = true ↔ a = v) ∧
    getFlag .n (cpFlags a v f) = true ∧ getFlag .h (cpFlags a v f) = decide (a.toNat % 16 < v.toNat % 16) ∧
    getFlag .c (cpFlags a v f) = decide (a.toNat < v.toNat) ∧ nibble (cpFlags a v f) = nibble f

/-- R270, R271: INC8 and DEC8, their flags, and that each undoes the other. -/
def Obligations.IncrementAndDecrementBytes : Prop :=
  ∀ v f : Byte,
    (inc8 v f).1.toNat = (v.toNat + 1) % 256 ∧ (dec8 v f).1.toNat = (v.toNat + 255) % 256 ∧
    getFlag .z (inc8 v f).2 = decide ((inc8 v f).1 = 0) ∧ getFlag .z (dec8 v f).2 = decide ((dec8 v f).1 = 0) ∧
    getFlag .n (inc8 v f).2 = false ∧ getFlag .n (dec8 v f).2 = true ∧
    getFlag .h (inc8 v f).2 = decide (v.toNat % 16 = 15) ∧ getFlag .h (dec8 v f).2 = decide (v.toNat % 16 = 0) ∧
    getFlag .c (inc8 v f).2 = getFlag .c f ∧ getFlag .c (dec8 v f).2 = getFlag .c f ∧
    nibble (inc8 v f).2 = nibble f ∧ nibble (dec8 v f).2 = nibble f ∧
    (∀ g, (dec8 (inc8 v f).1 g).1 = v ∧ (inc8 (dec8 v f).1 g).1 = v)

/-- `n` applications of RL8 to a byte and a flag register. -/
def Sys2Proof.Machine.rlTimes : Nat → Byte × Byte → Byte × Byte
  | 0, p => p
  | n + 1, p => rlTimes n (rl8 p.1 p.2)

/-- R290: RL8 rotates the nine bits of carry and byte; it is a bijection on them; nine applications return to the
start, and eight, from 0x01 with the carry clear, do not (90_conflicts.md C1). -/
def Obligations.RotateThroughCarry : Prop :=
  (∀ v f : Byte,
    (∀ i, i < 8 → (rl8 v f).1.getLsbD i = if i = 0 then getFlag .c f else v.getLsbD (i - 1)) ∧
    getFlag .c (rl8 v f).2 = v.getLsbD 7 ∧ getFlag .z (rl8 v f).2 = decide ((rl8 v f).1 = 0) ∧
    getFlag .n (rl8 v f).2 = false ∧ getFlag .h (rl8 v f).2 = false ∧ nibble (rl8 v f).2 = nibble f) ∧
  (∀ v v' f f' : Byte, (rl8 v f).1 = (rl8 v' f').1 → getFlag .c (rl8 v f).2 = getFlag .c (rl8 v' f').2 →
    v = v' ∧ getFlag .c f = getFlag .c f') ∧
  (∀ v f : Byte, (rlTimes 9 (v, f)).1 = v ∧ getFlag .c (rlTimes 9 (v, f)).2 = getFlag .c f) ∧
  (rlTimes 8 (0x01, 0x00)).1 = 0x00 ∧ getFlag .c (rlTimes 8 (0x01, 0x00)).2 = true

/-- R293: the flags of a bit test. -/
def Obligations.BitTestFlags : Prop :=
  ∀ (b : BitVec 3) (v f : Byte),
    getFlag .z (bitFlags b v f) = !v.getLsbD b.toNat ∧ getFlag .n (bitFlags b v f) = false ∧
    getFlag .h (bitFlags b v f) = true ∧ getFlag .c (bitFlags b v f) = getFlag .c f ∧
    nibble (bitFlags b v f) = nibble f

/-! ## The instructions

Each rule with its encoding, its effect, its frame, its data accesses and its M-cycles. These statements are derived, not
stated: the opcode numbers and fields in their encoding clauses are the specification's from general knowledge (PRESUMED,
decisions D1 and D12, notes/assumptions 8), the M-cycles follow its decision D6 and the zero scratch fields of `Frame` are
the model's (DESIGN CHOICE, notes/assumptions 11). Each docstring names these log entries as it rests on them. -/

/-- R190: NOP changes nothing but PC, by the fetch. (The opcode 0x00 is the source's own; M-cycles and zero scratch fields: notes/assumptions 11.)
-/
def Obligations.NopCompletes : Prop :=
  encode .nop = [0x00] ∧
  ∀ s, ∃ t, RunsIn 1 .nop s t ∧ Frame [] [] s t ∧ KeepsPointers s t ∧ KeepsMemory [] s t ∧ DataEvents [] s t

/-- R200: `LD r,r'`. (Encoding: notes/assumptions 8; M-cycles and zero scratch fields: notes/assumptions 11.)
-/
def Obligations.LoadRegisterFromRegister : Prop :=
  ∀ dst r, encode (ldRR dst r) = [fieldsXyz 1 dst.field r.field] ∧
  ∀ s, ∃ t, RunsIn 1 (ldRR dst r) s t ∧ t.reg8 dst = s.reg8 r ∧ Frame [dst] [] s t ∧ KeepsPointers s t ∧
    KeepsMemory [] s t ∧ DataEvents [] s t

/-- R201: `LD r,n`. (Encoding: notes/assumptions 8; M-cycles and zero scratch fields: notes/assumptions 11.)
-/
def Obligations.LoadRegisterFromImmediate : Prop :=
  ∀ dst n, encode (ldRN dst n) = [fieldsXyz 0 dst.field 6, n] ∧
  ∀ s, ∃ t, RunsIn 2 (ldRN dst n) s t ∧ t.reg8 dst = n ∧ Frame [dst] [] s t ∧ KeepsPointers s t ∧
    KeepsMemory [] s t ∧ DataEvents [] s t

/-- R202: `LD r,(HL)`, the address being HL before the load, also where the destination is H or L.
(Encoding: notes/assumptions 8; M-cycles and zero scratch fields: notes/assumptions 11.) -/
def Obligations.LoadRegisterFromHL : Prop :=
  ∀ dst, encode (ldRAtHL dst) = [fieldsXyz 1 dst.field 6] ∧
  ∀ s, ∃ t, RunsIn 2 (ldRAtHL dst) s t ∧ t.reg8 dst = s.env.peek (s.reg16 .hl) ∧ Frame [dst] [] s t ∧
    KeepsPointers s t ∧ KeepsMemory [s.reg16 .hl] s t ∧ DataEvents [.rd (s.reg16 .hl) (s.env.peek (s.reg16 .hl))] s t

/-- R203, R204: `LD (HL),r` and `LD (HL),n`.
(Encoding: notes/assumptions 8; M-cycles and zero scratch fields: notes/assumptions 11.) -/
def Obligations.StoreThroughHL : Prop :=
  (∀ r, encode (ldAtHLR r) = [fieldsXyz 1 6 r.field] ∧
    ∀ s, ∃ t, RunsIn 2 (ldAtHLR r) s t ∧ Stores [] [(s.reg16 .hl, s.reg8 r)] s t ∧ Frame [] [] s t ∧
      KeepsPointers s t ∧ DataEvents [.wr (s.reg16 .hl) (s.reg8 r)] s t) ∧
  (∀ n, encode (.ld_atHL_n n) = [0x36, n] ∧
    ∀ s, ∃ t, RunsIn 3 (.ld_atHL_n n) s t ∧ Stores [] [(s.reg16 .hl, n)] s t ∧ Frame [] [] s t ∧
      KeepsPointers s t ∧ DataEvents [.wr (s.reg16 .hl) n] s t)

/-- R205 to R208: loads and stores of A through BC and DE.
(Encoding: notes/assumptions 8; M-cycles and zero scratch fields: notes/assumptions 11.) -/
def Obligations.AccumulatorThroughBCAndDE : Prop :=
  encode .ld_A_atBC = [0x0A] ∧ encode .ld_A_atDE = [0x1A] ∧ encode .ld_atBC_A = [0x02] ∧ encode .ld_atDE_A = [0x12] ∧
  ∀ s,
    (∃ t, RunsIn 2 .ld_A_atBC s t ∧ t.a = s.env.peek (s.reg16 .bc) ∧ Frame [.a] [] s t ∧ KeepsPointers s t ∧
      KeepsMemory [s.reg16 .bc] s t ∧ DataEvents [.rd (s.reg16 .bc) (s.env.peek (s.reg16 .bc))] s t) ∧
    (∃ t, RunsIn 2 .ld_A_atDE s t ∧ t.a = s.env.peek (s.reg16 .de) ∧ Frame [.a] [] s t ∧ KeepsPointers s t ∧
      KeepsMemory [s.reg16 .de] s t ∧ DataEvents [.rd (s.reg16 .de) (s.env.peek (s.reg16 .de))] s t) ∧
    (∃ t, RunsIn 2 .ld_atBC_A s t ∧ Stores [] [(s.reg16 .bc, s.a)] s t ∧ Frame [] [] s t ∧ KeepsPointers s t ∧
      DataEvents [.wr (s.reg16 .bc) s.a] s t) ∧
    (∃ t, RunsIn 2 .ld_atDE_A s t ∧ Stores [] [(s.reg16 .de, s.a)] s t ∧ Frame [] [] s t ∧ KeepsPointers s t ∧
      DataEvents [.wr (s.reg16 .de) s.a] s t)

/-- R209 to R212: stores and loads of A through HL, HL moved by one after the access, modulo 2^16 (decision D9,
notes/assumptions 13). (Encoding: notes/assumptions 8; M-cycles and zero scratch fields: notes/assumptions 11.) -/
def Obligations.AccumulatorPostModify : Prop :=
  encode .ld_atHLinc_A = [0x22] ∧ encode .ld_atHLdec_A = [0x32] ∧ encode .ld_A_atHLinc = [0x2A] ∧
  encode .ld_A_atHLdec = [0x3A] ∧
  ∀ s,
    (∃ t, RunsIn 2 .ld_atHLinc_A s t ∧ t.reg16 .hl = s.reg16 .hl + 1 ∧ Stores [] [(s.reg16 .hl, s.a)] s t ∧
      Frame [.h, .l] [] s t ∧ KeepsPointers s t ∧ DataEvents [.wr (s.reg16 .hl) s.a] s t) ∧
    (∃ t, RunsIn 2 .ld_atHLdec_A s t ∧ t.reg16 .hl = s.reg16 .hl - 1 ∧ Stores [] [(s.reg16 .hl, s.a)] s t ∧
      Frame [.h, .l] [] s t ∧ KeepsPointers s t ∧ DataEvents [.wr (s.reg16 .hl) s.a] s t) ∧
    (∃ t, RunsIn 2 .ld_A_atHLinc s t ∧ t.a = s.env.peek (s.reg16 .hl) ∧ t.reg16 .hl = s.reg16 .hl + 1 ∧
      Frame [.a, .h, .l] [] s t ∧ KeepsPointers s t ∧ KeepsMemory [s.reg16 .hl] s t ∧
      DataEvents [.rd (s.reg16 .hl) (s.env.peek (s.reg16 .hl))] s t) ∧
    (∃ t, RunsIn 2 .ld_A_atHLdec s t ∧ t.a = s.env.peek (s.reg16 .hl) ∧ t.reg16 .hl = s.reg16 .hl - 1 ∧
      Frame [.a, .h, .l] [] s t ∧ KeepsPointers s t ∧ KeepsMemory [s.reg16 .hl] s t ∧
      DataEvents [.rd (s.reg16 .hl) (s.env.peek (s.reg16 .hl))] s t)

/-- R213 to R216: the high-page forms, at 0xFF00 plus C or plus n.
(Encoding: notes/assumptions 8; M-cycles and zero scratch fields: notes/assumptions 11.) -/
def Obligations.HighPageLoadsAndStores : Prop :=
  encode .ld_atC_A = [0xE2] ∧ encode .ld_A_atC = [0xF2] ∧
  (∀ n, encode (.ldh_atN_A n) = [0xE0, n] ∧ encode (.ldh_A_atN n) = [0xF0, n] ∧
    (highPage n).toNat = 0xFF00 + n.toNat) ∧
  ∀ s,
    (∃ t, RunsIn 2 .ld_atC_A s t ∧ Stores [] [(highPage s.c, s.a)] s t ∧ Frame [] [] s t ∧ KeepsPointers s t ∧
      DataEvents [.wr (highPage s.c) s.a] s t) ∧
    (∃ t, RunsIn 2 .ld_A_atC s t ∧ t.a = s.env.peek (highPage s.c) ∧ Frame [.a] [] s t ∧ KeepsPointers s t ∧
      KeepsMemory [highPage s.c] s t ∧ DataEvents [.rd (highPage s.c) (s.env.peek (highPage s.c))] s t) ∧
    (∀ n, ∃ t, RunsIn 3 (.ldh_atN_A n) s t ∧ Stores [] [(highPage n, s.a)] s t ∧ Frame [] [] s t ∧ KeepsPointers s t ∧
      DataEvents [.wr (highPage n) s.a] s t) ∧
    (∀ n, ∃ t, RunsIn 3 (.ldh_A_atN n) s t ∧ t.a = s.env.peek (highPage n) ∧ Frame [.a] [] s t ∧ KeepsPointers s t ∧
      KeepsMemory [highPage n] s t ∧ DataEvents [.rd (highPage n) (s.env.peek (highPage n))] s t)

/-- R217, R218: the absolute forms. (Encoding: notes/assumptions 8; M-cycles and zero scratch fields: notes/assumptions 11.)
-/
def Obligations.AbsoluteLoadsAndStores : Prop :=
  ∀ nn, encode (.ld_atNN_A nn) = [0xEA, lo8 nn, hi8 nn] ∧ encode (.ld_A_atNN nn) = [0xFA, lo8 nn, hi8 nn] ∧
  ∀ s,
    (∃ t, RunsIn 4 (.ld_atNN_A nn) s t ∧ Stores [] [(nn, s.a)] s t ∧ Frame [] [] s t ∧ KeepsPointers s t ∧
      DataEvents [.wr nn s.a] s t) ∧
    (∃ t, RunsIn 4 (.ld_A_atNN nn) s t ∧ t.a = s.env.peek nn ∧ Frame [.a] [] s t ∧ KeepsPointers s t ∧
      KeepsMemory [nn] s t ∧ DataEvents [.rd nn (s.env.peek nn)] s t)

/-- The 8-bit halves of a pair a `pp` field selects; SP has none. -/
def Sys2Proof.Machine.halves : Reg16 → List Reg8
  | .bc => [.b, .c]
  | .de => [.d, .e]
  | .hl => [.h, .l]
  | .sp => []
  | .af => [.a]

/-- R251: `LD rr,nn`. (Encoding, but for 0x01, which is the source's own: notes/assumptions 8; M-cycles and
zero scratch fields: notes/assumptions 11.) -/
def Obligations.LoadPairImmediate : Prop :=
  ∀ pp nn, encode (ldRrNn pp nn) = [fieldsXp 0 pp 0b0001, lo8 nn, hi8 nn] ∧
  ∀ s, ∃ t, RunsIn 3 (ldRrNn pp nn) s t ∧ t.reg16 (r16 pp) = nn ∧ (pp ≠ 3 → t.sp = s.sp) ∧ t.pc = s.pc ∧
    Frame (halves (r16 pp)) [] s t ∧ KeepsMemory [] s t ∧ DataEvents [] s t

/-- R252: `LD (nn),SP`, low byte first; the high byte's address wraps. The order of the two writes and the wrap are decisions
D8 and D9 of the specification (DESIGN CHOICE, notes/assumptions 13; R171 says that the order is decided).
(Encoding: notes/assumptions 8; M-cycles and zero scratch fields: notes/assumptions 11.) -/
def Obligations.StoreStackPointer : Prop :=
  ∀ nn, encode (.ld_atNN_SP nn) = [0x08, lo8 nn, hi8 nn] ∧
  ∀ s, ∃ t, RunsIn 5 (.ld_atNN_SP nn) s t ∧ Stores [] [(nn, lo8 s.sp), (nn + 1, hi8 s.sp)] s t ∧ Frame [] [] s t ∧
    KeepsPointers s t ∧ DataEvents [.wr nn (lo8 s.sp), .wr (nn + 1) (hi8 s.sp)] s t

/-- R253: `LD SP,HL`. (Encoding: notes/assumptions 8; the one M-cycle, R367, and the zero scratch fields: notes/assumptions
11.) -/
def Obligations.LoadStackPointerFromHL : Prop :=
  encode .ld_SP_HL = [0xF9] ∧
  ∀ s, ∃ t, RunsIn 1 .ld_SP_HL s t ∧ t.sp = s.reg16 .hl ∧ t.pc = s.pc ∧ Frame [] [] s t ∧ KeepsMemory [] s t ∧
    DataEvents [] s t

/-- R261 to R263: CP in its three forms: the flags of R260, A not written.
(Encoding: notes/assumptions 8; M-cycles and zero scratch fields: notes/assumptions 11.) -/
def Obligations.CompareInstructions : Prop :=
  (∀ r, encode (cpR r) = [fieldsXyz 2 7 r.field] ∧
    ∀ s, ∃ t, RunsIn 1 (cpR r) s t ∧ t.f = cpFlags s.a (s.reg8 r) s.f ∧ Frame [] [.z, .n, .h, .c] s t ∧
      KeepsPointers s t ∧ KeepsMemory [] s t ∧ DataEvents [] s t) ∧
  (encode .cp_atHL = [0xBE] ∧
    ∀ s, ∃ t, RunsIn 2 .cp_atHL s t ∧ t.f = cpFlags s.a (s.env.peek (s.reg16 .hl)) s.f ∧
      Frame [] [.z, .n, .h, .c] s t ∧ KeepsPointers s t ∧ KeepsMemory [s.reg16 .hl] s t ∧
      DataEvents [.rd (s.reg16 .hl) (s.env.peek (s.reg16 .hl))] s t) ∧
  (∀ n, encode (.cp_n n) = [0xFE, n] ∧
    ∀ s, ∃ t, RunsIn 2 (.cp_n n) s t ∧ t.f = cpFlags s.a n s.f ∧ Frame [] [.z, .n, .h, .c] s t ∧
      KeepsPointers s t ∧ KeepsMemory [] s t ∧ DataEvents [] s t)

/-- R272, R273: INC r and DEC r. (Encoding: notes/assumptions 8; M-cycles and zero scratch fields: notes/assumptions 11.)
-/
def Obligations.IncrementDecrementRegister : Prop :=
  ∀ r, encode (incR r) = [fieldsXyz 0 r.field 4] ∧ encode (decR r) = [fieldsXyz 0 r.field 5] ∧
  ∀ s,
    (∃ t, RunsIn 1 (incR r) s t ∧ t.reg8 r = (inc8 (s.reg8 r) s.f).1 ∧ t.f = (inc8 (s.reg8 r) s.f).2 ∧
      Frame [r] [.z, .n, .h] s t ∧ KeepsPointers s t ∧ KeepsMemory [] s t ∧ DataEvents [] s t) ∧
    (∃ t, RunsIn 1 (decR r) s t ∧ t.reg8 r = (dec8 (s.reg8 r) s.f).1 ∧ t.f = (dec8 (s.reg8 r) s.f).2 ∧
      Frame [r] [.z, .n, .h] s t ∧ KeepsPointers s t ∧ KeepsMemory [] s t ∧ DataEvents [] s t)

/-- R274, R275: INC (HL) and DEC (HL): a read, then a write of the result; the flags come from the byte read, whatever
the environment does with the write. (Encoding: notes/assumptions 8; M-cycles and zero scratch fields: notes/assumptions 11.) -/
def Obligations.IncrementDecrementMemory : Prop :=
  encode .inc_atHL = [0x34] ∧ encode .dec_atHL = [0x35] ∧
  ∀ s,
    let p := s.reg16 .hl
    let v := s.env.peek p
    (∃ t, RunsIn 3 .inc_atHL s t ∧ Stores [p] [(p, (inc8 v s.f).1)] s t ∧ t.f = (inc8 v s.f).2 ∧
      Frame [] [.z, .n, .h] s t ∧ KeepsPointers s t ∧ DataEvents [.rd p v, .wr p (inc8 v s.f).1] s t) ∧
    (∃ t, RunsIn 3 .dec_atHL s t ∧ Stores [p] [(p, (dec8 v s.f).1)] s t ∧ t.f = (dec8 v s.f).2 ∧
      Frame [] [.z, .n, .h] s t ∧ KeepsPointers s t ∧ DataEvents [.rd p v, .wr p (dec8 v s.f).1] s t)

/-- R276, R277: INC rr and DEC rr, modulo 2^16 (decision D9, notes/assumptions 13), no flag. (Encoding: notes/assumptions 8;
the one M-cycle, R367, and the zero scratch fields: notes/assumptions 11.) -/
def Obligations.IncrementDecrementPair : Prop :=
  ∀ pp, encode (incRr pp) = [fieldsXp 0 pp 0b0011] ∧ encode (decRr pp) = [fieldsXp 0 pp 0b1011] ∧
  ∀ s,
    (∃ t, RunsIn 1 (incRr pp) s t ∧ (t.reg16 (r16 pp)).toNat = ((s.reg16 (r16 pp)).toNat + 1) % 65536 ∧
      (pp ≠ 3 → t.sp = s.sp) ∧ t.pc = s.pc ∧ t.f = s.f ∧ Frame (halves (r16 pp)) [] s t ∧ KeepsMemory [] s t ∧
      DataEvents [] s t) ∧
    (∃ t, RunsIn 1 (decRr pp) s t ∧ (t.reg16 (r16 pp)).toNat = ((s.reg16 (r16 pp)).toNat + 65535) % 65536 ∧
      (pp ≠ 3 → t.sp = s.sp) ∧ t.pc = s.pc ∧ t.f = s.f ∧ Frame (halves (r16 pp)) [] s t ∧ KeepsMemory [] s t ∧
      DataEvents [] s t)

/-- R291, R292: RL r and RL (HL). The step through 0xCB rests on decision D5 (PRESUMED, notes/assumptions 10).
(Encoding: notes/assumptions 8; M-cycles and zero scratch fields: notes/assumptions 11.) -/
def Obligations.RotateInstructions : Prop :=
  (∀ r, encode (rlR r) = [0xCB, fieldsXyz 0 2 r.field] ∧
    ∀ s, ∃ t, RunsIn 2 (rlR r) s t ∧ t.reg8 r = (rl8 (s.reg8 r) s.f).1 ∧ t.f = (rl8 (s.reg8 r) s.f).2 ∧
      Frame [r] [.z, .n, .h, .c] s t ∧ KeepsPointers s t ∧ KeepsMemory [] s t ∧ DataEvents [] s t) ∧
  (encode .rl_atHL = [0xCB, 0x16] ∧
    ∀ s,
      let p := s.reg16 .hl
      let v := s.env.peek p
      ∃ t, RunsIn 4 .rl_atHL s t ∧ Stores [p] [(p, (rl8 v s.f).1)] s t ∧ t.f = (rl8 v s.f).2 ∧
        Frame [] [.z, .n, .h, .c] s t ∧ KeepsPointers s t ∧ DataEvents [.rd p v, .wr p (rl8 v s.f).1] s t)

/-- R294, R295: BIT b,r and BIT b,(HL): the operand is not written. The step through 0xCB rests on decision D5 (PRESUMED,
 notes/assumptions 10).
(Encoding: notes/assumptions 8; M-cycles and zero scratch fields: notes/assumptions 11.) -/
def Obligations.BitTestInstructions : Prop :=
  (∀ b r, encode (bitBR b r) = [0xCB, fieldsXyz 1 b r.field] ∧
    ∀ s, ∃ t, RunsIn 2 (bitBR b r) s t ∧ t.f = bitFlags b (s.reg8 r) s.f ∧ Frame [] [.z, .n, .h] s t ∧
      KeepsPointers s t ∧ KeepsMemory [] s t ∧ DataEvents [] s t) ∧
  (∀ b, encode (bitBAtHL b) = [0xCB, fieldsXyz 1 b 6] ∧
    ∀ s, ∃ t, RunsIn 3 (bitBAtHL b) s t ∧ t.f = bitFlags b (s.env.peek (s.reg16 .hl)) s.f ∧
      Frame [] [.z, .n, .h] s t ∧ KeepsPointers s t ∧ KeepsMemory [s.reg16 .hl] s t ∧
      DataEvents [.rd (s.reg16 .hl) (s.env.peek (s.reg16 .hl))] s t)

/-- R310, R311: PUSH rr: the high byte below SP, the low byte below it, SP down by two modulo 2^16, the pushed
register unchanged. The wrap of SP is decision D9 (notes/assumptions 13). (Encoding: notes/assumptions 8; the three M-cycles,
R367, and the zero scratch fields: notes/assumptions 11.) -/
def Obligations.PushPair : Prop :=
  ∀ pp, encode (pushRr pp) = [fieldsXp 3 pp 0b0101] ∧
  ∀ s,
    let w := s.reg16 (r16stk pp)
    ∃ t, RunsIn 3 (pushRr pp) s t ∧ t.sp = s.sp - 2 ∧ t.pc = s.pc ∧
      Stores [] [(s.sp - 1, hi8 w), (s.sp - 2, lo8 w)] s t ∧ Frame [] [] s t ∧ t.reg16 (r16stk pp) = w ∧
      DataEvents [.wr (s.sp - 1) (hi8 w), .wr (s.sp - 2) (lo8 w)] s t

/-- R320, R321: JR cc,e: taken exactly if the condition holds; the displacement is signed and is added to PC past the
offset byte, modulo 2^16; one more tick if taken. The base past the offset byte and the wrap are decisions D10
and D9 (DESIGN CHOICE, notes/assumptions 13). (Encoding: notes/assumptions 8; M-cycles and zero scratch fields: notes/assumptions 11.) -/
def Obligations.JumpRelativeConditional : Prop :=
  (∀ f : Byte, condHolds .nz f = !getFlag .z f ∧ condHolds .z f = getFlag .z f ∧ condHolds .nc f = !getFlag .c f ∧
    condHolds .c f = getFlag .c f) ∧
  (∀ e : Byte, (sext16 e).toInt = e.toInt) ∧
  ∀ cc e, encode (jrCc cc e) = [fieldsJr cc.field, e] ∧
  ∀ s, ∃ t, RunsIn (if condHolds cc s.f then 3 else 2) (jrCc cc e) s t ∧
    t.pc = (if condHolds cc s.f then s.pc + sext16 e else s.pc) ∧ t.sp = s.sp ∧ Frame [] [] s t ∧ KeepsMemory [] s t ∧
    DataEvents [] s t

/-! ## Rules about the whole machine -/

/-- R28: no instruction outside CP, INC, DEC, RL and BIT writes a flag, and none outside CP and RL writes the carry.
-/
def Obligations.FlagsWrittenOnlyByFlagInstructions : Prop :=
  ∀ i s t, exec i s = .next t → (¬WritesFlags i → t.f = s.f) ∧ (¬WritesCarry i → getFlag .c t.f = getFlag .c s.f)

/-- R31: SP is written only by LD SP,nn, LD SP,HL, INC SP, DEC SP and PUSH. -/
def Obligations.StackPointerWriters : Prop :=
  ∀ i s t, exec i s = .next t → ¬WritesSp i → t.sp = s.sp

/-- R30: after an instruction that is no jump PC is the opcode's address plus the instruction's length, modulo 2^16.
-/
def Obligations.ProgramCounterAdvance : Prop :=
  ∀ i s t, Fetches i s → i ≠ .prefix_CB → step s = .next t → (∀ cc e, i ≠ jrCc cc e) →
    t.pc = s.pc + BitVec.ofNat 16 (encode i).length

/-- R77: a store into the byte the next instruction is fetched from is what that fetch latches: self-modifying code works
with nothing in between. For every instruction: where the last write of a step that lands in the RAM cell behind the new PC
carries `v`, the next fetch latches `v`. The second clause says it of the meaning of `LD (HL),r` alone, in every state. -/
def Obligations.StoreIsSeenByNextFetch : Prop :=
  (∀ (s t : State) (before after : List BusEvent) (w : Addr) (v : Byte), s.phase = .fetch → s.env.mem.wf = true →
    step s = .next t → t.bus = before ++ .wr w v :: after → t.env.ramCell t.pc ≠ none →
    t.env.ramCell w = t.env.ramCell t.pc →
    (∀ w' v', BusEvent.wr w' v' ∈ after → t.env.ramCell w' ≠ t.env.ramCell t.pc) →
    (fetch t).opcode = v) ∧
  (∀ r s t, exec (ldAtHLR r) s = .next t → s.reg16 .hl = s.pc → s.env.mem.wf = true → s.env.ramCell s.pc ≠ none →
    (fetch t).opcode = s.reg8 r)

/-! ## The tick level -/

/-- R63, R140: one controller call makes at most one bus access; a call that fetches makes exactly the opcode read. What a
call does from a state that no call leaves is the model's choice (DESIGN CHOICE, notes/assumptions 24). -/
def Obligations.OneBusAccessPerTick : Prop :=
  ∀ s : State,
    (s.phase = .fetch → (tick s).bus = [.rd s.pc (s.env.peek s.pc)]) ∧
    (s.phase ≠ .fetch → ∃ evs, (tick s).bus = s.bus ++ evs ∧ evs.length ≤ 1)

/-- R35, R147: between two controller calls Decode is never the phase, and where an instruction is in flight its next stage
needs a bus access or the internal tick of a taken JR: work that needs neither has been done, "as early as possible".
(Decision D6; notes/assumptions 11. What a call does from a state that no call leaves is the model's choice: DESIGN CHOICE,
notes/assumptions 24.) -/
def Obligations.NoWorkIsLeftBetweenCalls : Prop :=
  ∀ s : State, (tick s).phase ≠ .decode ∧
    ((tick s).phase = .execute → ∃ st rest, (tick s).pending = st :: rest ∧ st.needsTick (tick s) = true)

/-- R163, R164: Imm8 is ready on its one tick; Imm16 is pending on its first tick and ready on its second, low byte
first; PC moves by one for each byte. -/
def Obligations.ImmediatesPendingThenReady : Prop :=
  ∀ (s : State) (b1 b2 : Byte), bytesAt s.env s.pc 2 = [b1, b2] →
    (read8Tick .imm8 0 s).1 = .ready b1 ∧ (read8Tick .imm8 0 s).2.pc = s.pc + 1 ∧
    (read8Tick .imm8 0 s).2.bus = s.bus ++ [.rd s.pc b1] ∧
    (read16Tick .imm16 0 s).1 = .pending ∧ (read16Tick .imm16 0 s).2.pc = s.pc + 1 ∧
    (read16Tick .imm16 0 s).2.scratch8 = b1 ∧
    (read16Tick .imm16 1 (read16Tick .imm16 0 s).2).1 = .ready (join b2 b1) ∧
    (read16Tick .imm16 1 (read16Tick .imm16 0 s).2).2.pc = s.pc + 2 ∧
    (read16Tick .imm16 1 (read16Tick .imm16 0 s).2).2.bus = s.bus ++ [.rd s.pc b1, .rd (s.pc + 1) b2]

/-- R8, R145, R147: the tick level refines the instruction level. A step that completes is as many controller calls as
it made bus accesses, one more for a taken JR, with the controller in Execute between them; a step that faults is as
many calls as it made fetches. (Decision D6; notes/assumptions 11.) -/
def Obligations.TicksRefineStep : Prop :=
  ∀ s : State, s.phase = .fetch →
    (∀ t, step s = .next t → ∃ i, Fetches i s ∧
      let n := t.bus.length + (if jumpTaken i s.f then 1 else 0)
      ticks n s = t ∧ ∀ k, 0 < k → k < n → (ticks k s).phase = .execute) ∧
    (∀ t, step s = .fault (.unimplementedOpcode t) → ticks t.bus.length s = t)
end

