-- ==== Sys2Proof/Laws/Memory.lean ====
section
/-! SUPPORT. The laws of memory: a cell reads back what was stored in it, a store leaves every other cell alone, and it
keeps the canonical form. -/

namespace Sys2Proof.Machine

theorem Memory.wfFrom_mono {lo lo' : Nat} {m : Memory} (h : lo' ≤ lo) (hm : Memory.wfFrom lo m = true) :
    Memory.wfFrom lo' m = true := by
  cases m with
  | nil => rfl
  | cons c rest =>
    obtain ⟨k, w⟩ := c
    simp only [Memory.wfFrom, Bool.and_eq_true, decide_eq_true_eq] at hm ⊢
    exact ⟨⟨⟨by omega, hm.1.1.2⟩, hm.1.2⟩, hm.2⟩

/-- A cell below every listed address reads as unlisted. -/
theorem Memory.get_below {lo a : Nat} {m : Memory} (hm : Memory.wfFrom lo m = true) (ha : a < lo) :
    m.get a = Memory.unwritten a := by
  induction m generalizing lo with
  | nil => rfl
  | cons c rest ih =>
    obtain ⟨k, w⟩ := c
    simp only [Memory.wfFrom, Bool.and_eq_true, decide_eq_true_eq] at hm
    have hk : a ≠ k := by omega
    simp only [Memory.get, hk, if_false]
    exact ih hm.2 (by omega)

/-- A store leaves every other cell alone, whatever the list. -/
theorem Memory.get_set_other (m : Memory) {a b : Nat} (v : Byte) (h : b ≠ a) : (m.set a v).get b = m.get b := by
  induction m with
  | nil => simp only [Memory.set]; split <;> simp [Memory.get, h]
  | cons c rest ih =>
    obtain ⟨k, w⟩ := c
    simp only [Memory.set]
    split
    · split <;> simp [Memory.get, h]
    · split
      · rename_i hk
        subst hk
        split <;> simp [Memory.get, h]
      · simp [Memory.get, ih]

/-- A cell of a canonical memory reads back what was stored in it. -/
theorem Memory.get_set_same {lo : Nat} {m : Memory} (hm : Memory.wfFrom lo m = true) (a : Nat) (v : Byte) :
    (m.set a v).get a = v := by
  induction m generalizing lo with
  | nil => simp only [Memory.set]; split <;> simp_all [Memory.get]
  | cons c rest ih =>
    obtain ⟨k, w⟩ := c
    simp only [Memory.wfFrom, Bool.and_eq_true, decide_eq_true_eq] at hm
    simp only [Memory.set]
    split
    · rename_i hlt
      split
      · rename_i hv
        have hk : a ≠ k := by omega
        simp only [Memory.get, hk, if_false]
        rw [Memory.get_below hm.2 (by omega), hv]
      · simp [Memory.get]
    · split
      · rename_i hk
        subst hk
        split
        · rename_i hv
          rw [Memory.get_below hm.2 (by omega), hv]
        · simp [Memory.get]
      · rename_i hk
        simp only [Memory.get, hk, if_false]
        exact ih hm.2

theorem Memory.set_wfFrom {lo : Nat} {m : Memory} (hm : Memory.wfFrom lo m = true) {a : Nat} (v : Byte) (hlo : lo ≤ a)
    (ha : a < 0x10000) : Memory.wfFrom lo (m.set a v) = true := by
  induction m generalizing lo with
  | nil =>
    simp only [Memory.set]
    split
    · rfl
    · simp_all [Memory.wfFrom]
  | cons c rest ih =>
    obtain ⟨k, w⟩ := c
    have hm' := hm
    simp only [Memory.wfFrom, Bool.and_eq_true, decide_eq_true_eq] at hm'
    simp only [Memory.set]
    split
    · rename_i hlt
      split
      · exact hm
      · rename_i hv
        simp only [Memory.wfFrom, Bool.and_eq_true, decide_eq_true_eq]
        exact ⟨⟨⟨hlo, ha⟩, hv⟩, ⟨⟨by omega, hm'.1.1.2⟩, hm'.1.2⟩, hm'.2⟩
    · split
      · rename_i hk
        subst hk
        split
        · exact Memory.wfFrom_mono (by omega) hm'.2
        · rename_i hv
          simp only [Memory.wfFrom, Bool.and_eq_true, decide_eq_true_eq]
          exact ⟨⟨⟨hlo, ha⟩, hv⟩, hm'.2⟩
      · simp only [Memory.wfFrom, Bool.and_eq_true, decide_eq_true_eq]
        exact ⟨hm'.1, ih hm'.2 (by omega)⟩

/-- A store in the 2^16-byte space keeps the canonical form. -/
theorem Memory.set_wf {m : Memory} (hm : m.wf = true) {a : Nat} (v : Byte) (ha : a < 0x10000) :
    (m.set a v).wf = true :=
  Memory.set_wfFrom hm v (Nat.zero_le a) ha

end Sys2Proof.Machine
end

