-- ==== Sys2Proof/Laws/Bus.lean ====
section
/-! SUPPORT. The laws of the bus: what a write can change, and what it keeps. -/

namespace Sys2Proof.Machine

/-- An external environment backs no known RAM cell. -/
@[simp] theorem Env.ramCell_external {e : Env} (h : e.cfg.bus = .external) (a : Addr) : e.ramCell a = none := by
  simp [Env.ramCell, h]

/-- A RAM cell is one of `RefBus` or `FlatBus`. -/
theorem Env.not_external {e : Env} {a : Addr} {k : Nat} (h : e.ramCell a = some k) : e.cfg.bus ≠ .external := by
  intro hb
  simp [Env.ramCell_external hb] at h

/-- The cell behind an address is a cell of the 2^16-byte space. -/
theorem Env.ramCell_lt {e : Env} {a : Addr} {k : Nat} (h : e.ramCell a = some k) : k < 0x10000 := by
  have ha := a.isLt
  simp only [Env.ramCell, wramCell] at h
  split at h
  · exact absurd h (by simp)
  · injection h with h
    omega
  · split at h
    · injection h with h
      split at h <;> omega
    · split at h
      · injection h with h
        omega
      · exact absurd h (by simp)

/-- The overlay answers only under `RefBus`. -/
theorem Env.overlaid_ref {e : Env} {a : Addr} (h : e.overlaid a = true) : e.cfg.bus = .ref := by
  simp only [Env.overlaid, Bool.and_eq_true, decide_eq_true_eq] at h
  exact h.1.1

/-- An address the overlay answers is backed by no RAM. -/
theorem Env.ramCell_overlaid {e : Env} {a : Addr} (h : e.overlaid a = true) : e.ramCell a = none := by
  simp only [Env.overlaid, Bool.and_eq_true, decide_eq_true_eq] at h
  have h1 : ¬(0xC000 ≤ a.toNat ∧ a.toNat ≤ 0xFDFF) := by omega
  have h2 : ¬(0xFF80 ≤ a.toNat ∧ a.toNat ≤ 0xFFFE) := by omega
  simp [Env.ramCell, h.1.1, h1, h2]

/-! ## Reads -/

@[simp] theorem Env.read_value (e : Env) (a : Addr) : (e.read a).1 = e.peek a := rfl
@[simp] theorem Env.read_env (e : Env) (a : Addr) : (e.read a).2 = e.afterRead a := rfl

/-- Under `RefBus` and `FlatBus` a read changes nothing (R70 to R72). -/
theorem Env.afterRead_of_not_external {e : Env} (h : e.cfg.bus ≠ .external) (a : Addr) : e.afterRead a = e := by
  simp [Env.afterRead, h]

/-- What a read can change: the state of an external environment, and nothing else. -/
theorem Env.afterRead_cases (e : Env) (a : Addr) : e.afterRead a = e ∨ ∃ x, e.afterRead a = { e with ext := x } := by
  unfold Env.afterRead
  split
  · exact .inr ⟨_, rfl⟩
  · exact .inl rfl

@[simp] theorem Env.afterRead_cfg (e : Env) (a : Addr) : (e.afterRead a).cfg = e.cfg := by
  obtain h | ⟨x, h⟩ := e.afterRead_cases a <;> rw [h]
@[simp] theorem Env.afterRead_mem (e : Env) (a : Addr) : (e.afterRead a).mem = e.mem := by
  obtain h | ⟨x, h⟩ := e.afterRead_cases a <;> rw [h]
@[simp] theorem Env.afterRead_bootEn (e : Env) (a : Addr) : (e.afterRead a).bootEn = e.bootEn := by
  obtain h | ⟨x, h⟩ := e.afterRead_cases a <;> rw [h]
@[simp] theorem Env.afterRead_ramCell (e : Env) (a b : Addr) : (e.afterRead a).ramCell b = e.ramCell b := by
  simp [Env.ramCell]
@[simp] theorem Env.afterRead_disablesBoot (e : Env) (a b : Addr) (v : Byte) :
    (e.afterRead a).disablesBoot b v = e.disablesBoot b v := by
  simp [Env.disablesBoot]

/-! ## Writes -/

/-- What a write answers: an external environment moves, a RAM cell is stored, the latch is cleared, or nothing is
changed. -/
theorem Env.write_cases (e : Env) (a : Addr) (v : Byte) :
    (e.cfg.bus = .external ∧ e.write a v = { e with ext := Config.externalWrite e.ext a v }) ∨
    (∃ k, e.ramCell a = some k ∧ e.write a v = { e with mem := e.mem.set k v }) ∨
    (e.cfg.bus ≠ .external ∧ e.ramCell a = none ∧ e.disablesBoot a v = true ∧ e.write a v = { e with bootEn := false }) ∨
    (e.cfg.bus ≠ .external ∧ e.ramCell a = none ∧ e.disablesBoot a v = false ∧ e.write a v = e) := by
  unfold Env.write
  by_cases hx : e.cfg.bus = .external
  · exact .inl ⟨hx, by simp [hx]⟩
  · simp only [hx, if_false]
    cases hk : e.ramCell a with
    | some k => exact .inr (.inl ⟨k, rfl, rfl⟩)
    | none =>
      cases hd : e.disablesBoot a v with
      | true => exact .inr (.inr (.inl ⟨hx, rfl, rfl, by simp⟩))
      | false => exact .inr (.inr (.inr ⟨hx, rfl, rfl, by simp⟩))

@[simp] theorem Env.write_cfg (e : Env) (a : Addr) (v : Byte) : (e.write a v).cfg = e.cfg := by
  obtain ⟨-, h⟩ | ⟨k, -, h⟩ | ⟨-, -, -, h⟩ | ⟨-, -, -, h⟩ := e.write_cases a v <;> simp [h]

@[simp] theorem Env.write_ramCell (e : Env) (a : Addr) (v : Byte) (b : Addr) :
    (e.write a v).ramCell b = e.ramCell b := by
  simp [Env.ramCell]

/-- A write keeps memory canonical. -/
theorem Env.write_wf {e : Env} (h : e.mem.wf = true) (a : Addr) (v : Byte) : (e.write a v).mem.wf = true := by
  obtain ⟨-, hw⟩ | ⟨k, hk, hw⟩ | ⟨-, -, -, hw⟩ | ⟨-, -, -, hw⟩ := e.write_cases a v
  · rw [hw]; exact h
  · rw [hw]
    exact Memory.set_wf h v (Env.ramCell_lt hk)
  · rw [hw]; exact h
  · rw [hw]; exact h

/-- A write can clear the latch and never sets it (R68). -/
theorem Env.write_bootEn (e : Env) (a : Addr) (v : Byte) :
    (e.write a v).bootEn = (e.bootEn && !((e.ramCell a).isNone && e.disablesBoot a v)) := by
  obtain ⟨hx, h⟩ | ⟨k, hk, h⟩ | ⟨-, hk, hd, h⟩ | ⟨-, hk, hd, h⟩ := e.write_cases a v
  · simp [h, Env.disablesBoot, hx]
  · simp [h, hk]
  · simp [h, hk, hd]
  · simp [h, hd]

/-- Under `RefBus` and `FlatBus` a write changes only what reads through the same RAM cell, or, when it clears the latch,
through the overlay. -/
theorem Env.peek_write_other (e : Env) (w : Addr) (v : Byte) (a : Addr) (hx : e.cfg.bus ≠ .external)
    (hc : e.ramCell w ≠ none → e.ramCell a ≠ e.ramCell w) (ho : e.disablesBoot w v = true → e.overlaid a = false) :
    (e.write w v).peek a = e.peek a := by
  obtain ⟨hx', -⟩ | ⟨k, hk, h⟩ | ⟨-, hk, hd, h⟩ | ⟨-, hk, hd, h⟩ := e.write_cases w v
  · exact absurd hx' hx
  · have hc' := hc (by simp [hk])
    have hov' : ({ e with mem := e.mem.set k v } : Env).overlaid a = e.overlaid a := rfl
    have hob' : ({ e with mem := e.mem.set k v } : Env).overlayByte a = e.overlayByte a := rfl
    have hr : ({ e with mem := e.mem.set k v } : Env).ramCell a = e.ramCell a := rfl
    rw [h]
    simp only [Env.peek, hx, if_false, hov', hob', hr]
    split
    · rfl
    · cases ha : e.ramCell a with
      | none => rfl
      | some j =>
        have hj : j ≠ k := by rintro rfl; exact hc' (by rw [ha, hk])
        simpa using Memory.get_set_other e.mem v hj
  · have hov := ho hd
    have hov' : ({ e with bootEn := false } : Env).overlaid a = false := by simp [Env.overlaid]
    have hr : ({ e with bootEn := false } : Env).ramCell a = e.ramCell a := rfl
    rw [h]
    simp [Env.peek, hx, hov, hov', hr]
  · rw [h]

/-- A RAM address reads back what was written to it, and so does every address that shares its cell. -/
theorem Env.peek_write_same {e : Env} (hm : e.mem.wf = true) {w a : Addr} {k : Nat} (v : Byte)
    (hw : e.ramCell w = some k) (ha : e.ramCell a = some k) : (e.write w v).peek a = v := by
  have hx := Env.not_external hw
  have ho : e.overlaid a = false := by
    cases h : e.overlaid a with
    | false => rfl
    | true => simp [Env.ramCell_overlaid h] at ha
  have h : e.write w v = { e with mem := e.mem.set k v } := by simp [Env.write, hx, hw]
  have ho' : ({ e with mem := e.mem.set k v } : Env).overlaid a = false := ho
  have hr : ({ e with mem := e.mem.set k v } : Env).ramCell a = some k := ha
  rw [h]
  simp only [Env.peek, hx, if_false, ho', hr]
  exact Memory.get_set_same hm k v

/-- Neighbouring addresses share no RAM cell, with `WramMirror` as without. -/
theorem Env.ramCell_next {e : Env} {a : Addr} {k : Nat} (h : e.ramCell a = some k) : e.ramCell (a + 1) ≠ some k := by
  have ha := a.isLt
  have hn : (a + 1).toNat = (a.toNat + 1) % 65536 := by simp [BitVec.toNat_add]
  intro h'
  simp only [Env.ramCell, wramCell] at h h'
  cases hb : e.cfg.bus with
  | external => simp [hb] at h
  | flat =>
    simp only [hb, Option.some.injEq] at h h'
    omega
  | ref =>
    simp only [hb] at h h'
    split at h <;> split at h' <;> (try split at h) <;> (try split at h') <;>
      (simp only [Option.some.injEq, reduceCtorEq] at h h' <;> omega)

end Sys2Proof.Machine
end

