-- ==== Sys2Proof/Laws/Decode.lean ====
section
/-! SUPPORT. What the opcode tables hold: for every pair of an opcode byte and the CB flag the entry's instruction has that
byte, that table and the immediates the entry gives it. Later proofs cite this instead of splitting over the tables. -/

namespace Sys2Proof

/-- What a table entry says of its pair. -/
def EntryOk (cb : Bool) (op : Byte) : Row → Prop
  | .absent => implemented op cb = false
  | .plain i => implemented op cb = true ∧ i.opcode = op ∧ i.isCb = cb ∧ i.immediates = [] ∧
      ∀ op' cb', i ≠ .unimplemented op' cb'
  | .imm8 f => implemented op cb = true ∧ cb = false ∧ ∀ n, (f n).opcode = op ∧ (f n).isCb = false ∧
      (f n).immediates = [n] ∧ f n ≠ .prefix_CB ∧ ∀ op' cb', f n ≠ .unimplemented op' cb'
  | .imm16 f => implemented op cb = true ∧ cb = false ∧ ∀ w, (f w).opcode = op ∧ (f w).isCb = false ∧
      (f w).immediates = [lo8 w, hi8 w] ∧ f w ≠ .prefix_CB ∧
      ∀ op' cb', f w ≠ .unimplemented op' cb'

theorem absent_ok {cb : Bool} {op : Byte} (h : implemented op cb = false) : EntryOk cb op .absent := h

theorem plain_ok {cb : Bool} {op : Byte} {i : Instr} (h : (implemented op cb && decide (i.opcode = op) &&
    decide (i.isCb = cb) && decide (i.immediates = [])) = true)
    (hu : ∀ op' cb', i ≠ .unimplemented op' cb') : EntryOk cb op (.plain i) := by
  simp only [Bool.and_eq_true, decide_eq_true_eq] at h
  exact ⟨h.1.1.1, h.1.1.2, h.1.2, h.2, hu⟩

theorem entry_ok_base (n : Nat) (h : n < 256) : EntryOk false (BitVec.ofNat 8 n) (tableEntry false (BitVec.ofNat 8 n)) := by
  interval_cases n <;>
    first
    | exact absent_ok (by decide)
    | exact plain_ok (by decide) nofun
    | exact ⟨by decide, rfl, fun _ => ⟨rfl, rfl, rfl, nofun, nofun⟩⟩

theorem entry_ok_cb (n : Nat) (h : n < 256) : EntryOk true (BitVec.ofNat 8 n) (tableEntry true (BitVec.ofNat 8 n)) := by
  interval_cases n <;>
    first
    | exact absent_ok (by decide)
    | exact plain_ok (by decide) nofun

/-- Every entry of the opcode tables is what its pair says (R110, R111, R113). -/
theorem tableEntry_ok (cb : Bool) (op : Byte) : EntryOk cb op (tableEntry cb op) := by
  have hn : op = BitVec.ofNat 8 op.toNat := by simp
  rw [hn]
  cases cb
  · exact entry_ok_base _ op.isLt
  · exact entry_ok_cb _ op.isLt

/-! ## The configured set -/

/-- A pair in the configured set that a rule gives a handler has its table's entry; any other pair has none. -/
theorem entryIn_of_hasHandler {m : Implemented} {op : Byte} {cb : Bool} (h : hasHandler m op cb = true) :
    entryIn m cb op = tableEntry cb op := by
  simp only [hasHandler, Bool.and_eq_true] at h
  simp [entryIn, h.1]

theorem entryIn_of_not_hasHandler {m : Implemented} {op : Byte} {cb : Bool} (h : hasHandler m op cb = false) :
    entryIn m cb op = .absent := by
  unfold entryIn
  split
  · rename_i hm
    have hi : implemented op cb = false := by simpa [hasHandler, hm] using h
    have e := tableEntry_ok cb op
    revert e
    cases tableEntry cb op with
    | absent => intro _; rfl
    | plain i => intro e; exact absurd (hi.symm.trans e.1) Bool.false_ne_true
    | imm8 f => intro e; exact absurd (hi.symm.trans e.1) Bool.false_ne_true
    | imm16 f => intro e; exact absurd (hi.symm.trans e.1) Bool.false_ne_true
  · rfl

theorem default_has_base (n : Nat) (h : n < 256) :
    Implemented.default.has (BitVec.ofNat 8 n) false = implemented (BitVec.ofNat 8 n) false := by
  interval_cases n <;> decide

theorem default_has_cb (n : Nat) (h : n < 256) :
    Implemented.default.has (BitVec.ofNat 8 n) true = implemented (BitVec.ofNat 8 n) true := by
  interval_cases n <;> decide

/-- The default set, written as bits, is the set of R100, written as the complement of R113. -/
theorem default_hasHandler (op : Byte) (cb : Bool) : hasHandler .default op cb = implemented op cb := by
  have hn : op = BitVec.ofNat 8 op.toNat := by simp
  have e : Implemented.default.has op cb = implemented op cb := by
    rw [hn]
    cases cb
    · exact default_has_base _ op.isLt
    · exact default_has_cb _ op.isLt
  simp [hasHandler, e]

end Sys2Proof
end

