-- ==== Sys2Proof/Laws/Exec.lean ====
section
/-! SUPPORT. What `exec` runs for each family of instructions: one lemma for each family, by its operand fields, which
later proofs cite instead of splitting over the constructors. -/

namespace Sys2Proof.Machine

theorem exec_ldRR (dst r : Reg8) (s : State) : exec (ldRR dst r) s = ld8 (.reg dst) (.reg r) s := by
  cases dst <;> cases r <;> rfl

theorem exec_ldRN (dst : Reg8) (n : Byte) (s : State) : exec (ldRN dst n) s = ld8 (.reg dst) (.imm8 n) s := by
  cases dst <;> rfl

theorem exec_ldRAtHL (dst : Reg8) (s : State) : exec (ldRAtHL dst) s = ld8 (.reg dst) (.ind .hl) s := by
  cases dst <;> rfl

theorem exec_ldAtHLR (r : Reg8) (s : State) : exec (ldAtHLR r) s = ld8 (.ind .hl) (.reg r) s := by
  cases r <;> rfl

theorem exec_cpR (r : Reg8) (s : State) : exec (cpR r) s = compareWithA (.reg r) s := by
  cases r <;> rfl

theorem exec_incR (r : Reg8) (s : State) : exec (incR r) s = increment (.reg r) s := by
  cases r <;> rfl

theorem exec_decR (r : Reg8) (s : State) : exec (decR r) s = decrement (.reg r) s := by
  cases r <;> rfl

theorem exec_rlR (r : Reg8) (s : State) : exec (rlR r) s = rotateLeft (.reg r) s := by
  cases r <;> rfl

theorem exec_jrCc (cc : Cond) (e : Byte) (s : State) : exec (jrCc cc e) s = jumpRelative cc e s := by
  cases cc <;> rfl

/-- The four values of a `pp` field. -/
theorem field2_cases (p : BitVec 2) : p = 0 ∨ p = 1 ∨ p = 2 ∨ p = 3 := by
  revert p
  decide

/-- The eight values of a three-bit field. -/
theorem field3_cases (b : BitVec 3) :
    b = 0 ∨ b = 1 ∨ b = 2 ∨ b = 3 ∨ b = 4 ∨ b = 5 ∨ b = 6 ∨ b = 7 := by
  revert b
  decide

theorem exec_ldRrNn (pp : BitVec 2) (nn : Word) (s : State) : exec (ldRrNn pp nn) s = ld16 (.reg16 (r16 pp)) (.imm16 nn) s := by
  rcases field2_cases pp with rfl | rfl | rfl | rfl <;> rfl

theorem exec_incRr (pp : BitVec 2) (s : State) : exec (incRr pp) s = increment16 (r16 pp) s := by
  rcases field2_cases pp with rfl | rfl | rfl | rfl <;> rfl

theorem exec_decRr (pp : BitVec 2) (s : State) : exec (decRr pp) s = decrement16 (r16 pp) s := by
  rcases field2_cases pp with rfl | rfl | rfl | rfl <;> rfl

theorem exec_pushRr (pp : BitVec 2) (s : State) : exec (pushRr pp) s = push (r16stk pp) s := by
  rcases field2_cases pp with rfl | rfl | rfl | rfl <;> rfl

theorem exec_bitBR (b : BitVec 3) (r : Reg8) (s : State) : exec (bitBR b r) s = bitTest b (.reg r) s := by
  rcases field3_cases b with rfl | rfl | rfl | rfl | rfl | rfl | rfl | rfl <;> cases r <;> rfl

theorem exec_bitBAtHL (b : BitVec 3) (s : State) : exec (bitBAtHL b) s = bitTest b (.ind .hl) s := by
  rcases field3_cases b with rfl | rfl | rfl | rfl | rfl | rfl | rfl | rfl <;> rfl

/-- The shared handlers over operands that an instruction may write: what a meaning can be. -/
inductive IsHandler (s : State) : Result → Prop where
  | noOperation : IsHandler s (noOperation s)
  | ld8 (dst src : Operand8) (h : ∀ n, dst ≠ .imm8 n) : IsHandler s (ld8 dst src s)
  | ld16 (dst src : Operand16) (h : ∀ nn, dst ≠ .imm16 nn) (h' : dst ≠ .reg16 .af) : IsHandler s (ld16 dst src s)
  | compareWithA (src : Operand8) : IsHandler s (compareWithA src s)
  | increment (k : Operand8) (h : ∀ n, k ≠ .imm8 n) : IsHandler s (increment k s)
  | decrement (k : Operand8) (h : ∀ n, k ≠ .imm8 n) : IsHandler s (decrement k s)
  | rotateLeft (k : Operand8) (h : ∀ n, k ≠ .imm8 n) : IsHandler s (rotateLeft k s)
  | bitTest (b : BitVec 3) (k : Operand8) : IsHandler s (bitTest b k s)
  | increment16 (rr : Reg16) (h : rr ≠ .af) : IsHandler s (increment16 rr s)
  | decrement16 (rr : Reg16) (h : rr ≠ .af) : IsHandler s (decrement16 rr s)
  | push (rr : Reg16) : IsHandler s (push rr s)
  | jumpRelative (cc : Cond) (e : Byte) : IsHandler s (jumpRelative cc e s)

theorem isHandler_cb (i : Instr) (s : State) (h : i.isCb = true) : IsHandler s (exec i s) ∨ ∃ op cb, i = .unimplemented op cb := by
  cases i
  case unimplemented op cb => exact .inr ⟨op, cb, rfl⟩
  all_goals first
    | exact absurd h Bool.false_ne_true
    | (simp only [exec]; exact .inl (.bitTest _ _))
    | (simp only [exec]; refine .inl (.rotateLeft _ ?_); nofun)

theorem isHandler_loads (i : Instr) (s : State) (h : i.isCb = false) (ho : i.opcode.toNat / 64 = 1) :
    IsHandler s (exec i s) ∨ ∃ op cb, i = .unimplemented op cb := by
  cases i
  case unimplemented op cb => exact .inr ⟨op, cb, rfl⟩
  all_goals first
    | exact absurd h.symm Bool.false_ne_true
    | (simp [Instr.opcode] at ho; done)
    | (simp only [exec]; refine .inl (.ld8 _ _ ?_); nofun)

theorem isHandler_others (i : Instr) (s : State) (h : i.isCb = false) (ho : i.opcode.toNat / 64 ≠ 1) :
    IsHandler s (exec i s) ∨ i = .prefix_CB ∨ ∃ op cb, i = .unimplemented op cb := by
  cases i
  case unimplemented op cb => exact .inr (.inr ⟨op, cb, rfl⟩)
  case prefix_CB => exact .inr (.inl rfl)
  case nop => exact .inl .noOperation
  all_goals first
    | exact absurd h.symm Bool.false_ne_true
    | exact (ho rfl).elim
    | (simp only [exec]; refine .inl (.ld8 _ _ ?_); nofun)
    | (simp only [exec]; exact .inl (.compareWithA _))
    | (simp only [exec]; refine .inl (.increment _ ?_); nofun)
    | (simp only [exec]; refine .inl (.decrement _ ?_); nofun)
    | (simp only [exec]; refine .inl (.ld16 _ _ ?_ ?_) <;> nofun)
    | (simp only [exec]; refine .inl (.increment16 _ ?_); nofun)
    | (simp only [exec]; refine .inl (.decrement16 _ ?_); nofun)
    | (simp only [exec]; exact .inl (.push _))
    | (simp only [exec]; exact .inl (.jumpRelative _ _))

/-- Every meaning is one of the shared handlers: the one case split over the instructions that a proof about every
instruction needs. -/
theorem exec_isHandler (i : Instr) (s : State) :
    IsHandler s (exec i s) ∨ i = .prefix_CB ∨ ∃ op cb, i = .unimplemented op cb := by
  cases hc : i.isCb with
  | true =>
    rcases isHandler_cb i s hc with h | h
    · exact .inl h
    · exact .inr (.inr h)
  | false =>
    by_cases ho : i.opcode.toNat / 64 = 1
    · rcases isHandler_loads i s hc ho with h | h
      · exact .inl h
      · exact .inr (.inr h)
    · exact isHandler_others i s hc ho

end Sys2Proof.Machine
end

