-- ==== Sys2Proof/Laws/Fetch.lean ====
section
/-! SUPPORT. The laws of supplying the environment's contents: loading bytes keeps memory canonical, the latch and the bus, and
the state that `withFetchWord` gives has a canonical memory and an accepted configuration; reset's memory is canonical. -/

namespace Sys2Proof.Machine

/-- Where the bytes are placed the model accepts the configuration. -/
theorem Env.placeable_accepted (e : Env) : e.placeable.cfg.accepted = true := by
  unfold Env.placeable
  split
  · split
    · rename_i hb _ hr
      simp [Config.accepted, hr]
    · simp [Config.accepted]
  · rename_i hb
    simp [Config.accepted, hb]
  · simp [Config.accepted]

/-- Making an environment placeable touches neither the latch nor memory. -/
theorem Env.placeable_keeps (e : Env) : e.placeable.bootEn = e.bootEn ∧ e.placeable.mem = e.mem := by
  unfold Env.placeable
  split
  · split <;> exact ⟨rfl, rfl⟩
  · exact ⟨rfl, rfl⟩
  · exact ⟨rfl, rfl⟩

/-- What placing a byte does: a byte of the `BootRom`, a RAM cell, or nothing. -/
theorem Env.place_cases (e : Env) (a : Addr) (v : Byte) :
    (∃ rom, e.place a v = { e with cfg := { e.cfg with bootRom := some rom } }) ∨
    (∃ k, e.ramCell a = some k ∧ e.place a v = { e with mem := e.mem.set k v }) ∨ e.place a v = e := by
  unfold Env.place
  split
  · exact .inl ⟨_, rfl⟩
  · split
    · rename_i k hk
      exact .inr (.inl ⟨k, hk, rfl⟩)
    · exact .inr (.inr rfl)

/-- Loading bytes keeps memory canonical. -/
theorem Env.load_wf (bytes : List Byte) : ∀ {e : Env} (a : Addr), e.mem.wf = true → (e.load a bytes).mem.wf = true := by
  induction bytes with
  | nil => intro e a h; exact h
  | cons v rest ih =>
    intro e a h
    refine ih (a + 1) ?_
    obtain ⟨rom, hp⟩ | ⟨k, hk, hp⟩ | hp := e.place_cases a v <;> rw [hp]
    · exact h
    · exact Memory.set_wf h v (Env.ramCell_lt hk)
    · exact h

/-- Loading bytes keeps the latch, the bus and an accepted configuration. -/
theorem Env.load_keeps (bytes : List Byte) : ∀ (e : Env) (a : Addr),
    (e.load a bytes).bootEn = e.bootEn ∧ (e.load a bytes).cfg.bus = e.cfg.bus ∧
      (e.cfg.accepted = true → (e.load a bytes).cfg.accepted = true) := by
  induction bytes with
  | nil => intro e a; exact ⟨rfl, rfl, id⟩
  | cons v rest ih =>
    intro e a
    have h := ih (e.place a v) (a + 1)
    simp only [Env.load]
    obtain ⟨rom, hp⟩ | ⟨k, -, hp⟩ | hp := e.place_cases a v <;> rw [hp] at h ⊢
    · exact ⟨h.1, h.2.1, fun _ => h.2.2 (by simp [Config.accepted])⟩
    · exact h
    · exact h

theorem withFetchWord_wf {s : State} (h : s.env.mem.wf = true) (nbits w : Nat) :
    (s.withFetchWord nbits w).env.mem.wf = true :=
  Env.load_wf _ _ (by rw [s.env.placeable_keeps.2]; exact h)

/-- A state with a placed instruction is one whose step is not refused. -/
theorem withFetchWord_accepted (s : State) (nbits w : Nat) : (s.withFetchWord nbits w).env.cfg.accepted = true :=
  (Env.load_keeps _ _ _).2.2 s.env.placeable_accepted

theorem reset_wf : State.reset.env.mem.wf = true := rfl

end Sys2Proof.Machine
end

