-- ==== Sys2Proof/Laws/Flags.lean ====
section
/-! SUPPORT. The laws of the flag register: a setter sets its flag and no other bit, and what each flag computation leaves
in each flag. -/

namespace Sys2Proof.Machine

/-- A setter sets its own flag and keeps every other (R27). -/
@[simp] theorem getFlag_setFlag (fl gl : Flag) (v : Bool) (f : Byte) :
    getFlag gl (setFlag fl v f) = if gl = fl then v else getFlag gl f := by
  cases fl <;> cases gl <;> cases v <;> revert f <;> decide

/-- A setter keeps the low nibble (R24). -/
@[simp] theorem nibble_setFlag (fl : Flag) (v : Bool) (f : Byte) : nibble (setFlag fl v f) = nibble f := by
  cases fl <;> cases v <;> revert f <;> decide

/-- F is its four flags and its low nibble. -/
theorem flags_ext {f g : Byte} (hz : getFlag .z f = getFlag .z g) (hn : getFlag .n f = getFlag .n g)
    (hh : getFlag .h f = getFlag .h g) (hc : getFlag .c f = getFlag .c g) (hl : nibble f = nibble g) : f = g := by
  apply BitVec.eq_of_getLsbD_eq
  intro i hi
  have low : ∀ j, j < 4 → f.getLsbD j = g.getLsbD j := by
    intro j hj
    have e := congrArg (fun n => n.getLsbD j) hl
    simpa [nibble, BitVec.getLsbD_extractLsb', hj] using e
  have cases8 : i = 7 ∨ i = 6 ∨ i = 5 ∨ i = 4 ∨ i < 4 := by omega
  rcases cases8 with rfl | rfl | rfl | rfl | h
  · exact hz
  · exact hn
  · exact hh
  · exact hc
  · exact low i h

/-! What the computations leave in the flags (R260, R270, R271, R290, R293). -/

theorem cpFlags_flag (a v f : Byte) (fl : Flag) :
    getFlag fl (cpFlags a v f) =
      match fl with
      | .z => decide (a - v = 0)
      | .n => true
      | .h => decide ((nibble a).toNat < (nibble v).toNat)
      | .c => decide (a.toNat < v.toNat) := by
  cases fl <;> simp [cpFlags]

theorem inc8_flag (v f : Byte) (fl : Flag) :
    getFlag fl (inc8 v f).2 =
      match fl with
      | .z => decide (v + 1 = 0)
      | .n => false
      | .h => decide (nibble v = 0xF)
      | .c => getFlag .c f := by
  cases fl <;> simp [inc8]

theorem dec8_flag (v f : Byte) (fl : Flag) :
    getFlag fl (dec8 v f).2 =
      match fl with
      | .z => decide (v - 1 = 0)
      | .n => true
      | .h => decide (nibble v = 0x0)
      | .c => getFlag .c f := by
  cases fl <;> simp [dec8]

theorem rl8_flag (v f : Byte) (fl : Flag) :
    getFlag fl (rl8 v f).2 =
      match fl with
      | .z => decide ((rl8 v f).1 = 0)
      | .n => false
      | .h => false
      | .c => v.getLsbD 7 := by
  cases fl <;> simp [rl8]

theorem bitFlags_flag (b : BitVec 3) (v f : Byte) (fl : Flag) :
    getFlag fl (bitFlags b v f) =
      match fl with
      | .z => !v.getLsbD b.toNat
      | .n => false
      | .h => true
      | .c => getFlag .c f := by
  cases fl <;> simp [bitFlags]

@[simp] theorem cpFlags_nibble (a v f : Byte) : nibble (cpFlags a v f) = nibble f := by simp [cpFlags]
@[simp] theorem inc8_nibble (v f : Byte) : nibble (inc8 v f).2 = nibble f := by simp [inc8]
@[simp] theorem dec8_nibble (v f : Byte) : nibble (dec8 v f).2 = nibble f := by simp [dec8]
@[simp] theorem rl8_nibble (v f : Byte) : nibble (rl8 v f).2 = nibble f := by simp [rl8]
@[simp] theorem bitFlags_nibble (b : BitVec 3) (v f : Byte) : nibble (bitFlags b v f) = nibble f := by simp [bitFlags]

end Sys2Proof.Machine
end

