-- ==== Sys2Proof/Laws/State.lean ====
section
/-! SUPPORT. The fields of the state after each shared update: one lemma for each field and update, so that no later
proof unfolds a record update. -/

namespace Sys2Proof.Machine

/-! ### complete -/

@[simp] theorem complete_a (s : State) : (complete s).a = s.a := rfl
@[simp] theorem complete_b (s : State) : (complete s).b = s.b := rfl
@[simp] theorem complete_c (s : State) : (complete s).c = s.c := rfl
@[simp] theorem complete_d (s : State) : (complete s).d = s.d := rfl
@[simp] theorem complete_e (s : State) : (complete s).e = s.e := rfl
@[simp] theorem complete_h (s : State) : (complete s).h = s.h := rfl
@[simp] theorem complete_l (s : State) : (complete s).l = s.l := rfl
@[simp] theorem complete_f (s : State) : (complete s).f = s.f := rfl
@[simp] theorem complete_pc (s : State) : (complete s).pc = s.pc := rfl
@[simp] theorem complete_sp (s : State) : (complete s).sp = s.sp := rfl
@[simp] theorem complete_opcode (s : State) : (complete s).opcode = s.opcode := rfl
@[simp] theorem complete_cb (s : State) : (complete s).cb = s.cb := rfl
@[simp] theorem complete_fetchAddr (s : State) : (complete s).fetchAddr = s.fetchAddr := rfl
@[simp] theorem complete_phase (s : State) : (complete s).phase = .fetch := rfl
@[simp] theorem complete_handler (s : State) : (complete s).handler = .idle := rfl
@[simp] theorem complete_stage (s : State) : (complete s).stage = 0 := rfl
@[simp] theorem complete_scratch8 (s : State) : (complete s).scratch8 = 0 := rfl
@[simp] theorem complete_scratch16 (s : State) : (complete s).scratch16 = 0 := rfl
@[simp] theorem complete_fault (s : State) : (complete s).fault = s.fault := rfl
@[simp] theorem complete_cfg (s : State) : (complete s).cfg = s.cfg := rfl
@[simp] theorem complete_env (s : State) : (complete s).env = s.env := rfl
@[simp] theorem complete_bus (s : State) : (complete s).bus = s.bus := rfl

/-! ### enterFault -/

@[simp] theorem enterFault_a (k : FaultKind) (op : Byte) (cb : Bool) (s : State) : (enterFault k op cb s).a = s.a := rfl
@[simp] theorem enterFault_b (k : FaultKind) (op : Byte) (cb : Bool) (s : State) : (enterFault k op cb s).b = s.b := rfl
@[simp] theorem enterFault_c (k : FaultKind) (op : Byte) (cb : Bool) (s : State) : (enterFault k op cb s).c = s.c := rfl
@[simp] theorem enterFault_d (k : FaultKind) (op : Byte) (cb : Bool) (s : State) : (enterFault k op cb s).d = s.d := rfl
@[simp] theorem enterFault_e (k : FaultKind) (op : Byte) (cb : Bool) (s : State) : (enterFault k op cb s).e = s.e := rfl
@[simp] theorem enterFault_h (k : FaultKind) (op : Byte) (cb : Bool) (s : State) : (enterFault k op cb s).h = s.h := rfl
@[simp] theorem enterFault_l (k : FaultKind) (op : Byte) (cb : Bool) (s : State) : (enterFault k op cb s).l = s.l := rfl
@[simp] theorem enterFault_f (k : FaultKind) (op : Byte) (cb : Bool) (s : State) : (enterFault k op cb s).f = s.f := rfl
@[simp] theorem enterFault_pc (k : FaultKind) (op : Byte) (cb : Bool) (s : State) : (enterFault k op cb s).pc = s.pc := rfl
@[simp] theorem enterFault_sp (k : FaultKind) (op : Byte) (cb : Bool) (s : State) : (enterFault k op cb s).sp = s.sp := rfl
@[simp] theorem enterFault_opcode (k : FaultKind) (op : Byte) (cb : Bool) (s : State) : (enterFault k op cb s).opcode = s.opcode := rfl
@[simp] theorem enterFault_cb (k : FaultKind) (op : Byte) (cb : Bool) (s : State) : (enterFault k op cb s).cb = s.cb := rfl
@[simp] theorem enterFault_fetchAddr (k : FaultKind) (op : Byte) (cb : Bool) (s : State) : (enterFault k op cb s).fetchAddr = s.fetchAddr := rfl
@[simp] theorem enterFault_phase (k : FaultKind) (op : Byte) (cb : Bool) (s : State) : (enterFault k op cb s).phase = .faulted := rfl
@[simp] theorem enterFault_handler (k : FaultKind) (op : Byte) (cb : Bool) (s : State) : (enterFault k op cb s).handler = .idle := rfl
@[simp] theorem enterFault_stage (k : FaultKind) (op : Byte) (cb : Bool) (s : State) : (enterFault k op cb s).stage = 0 := rfl
@[simp] theorem enterFault_scratch8 (k : FaultKind) (op : Byte) (cb : Bool) (s : State) : (enterFault k op cb s).scratch8 = 0 := rfl
@[simp] theorem enterFault_scratch16 (k : FaultKind) (op : Byte) (cb : Bool) (s : State) : (enterFault k op cb s).scratch16 = 0 := rfl
@[simp] theorem enterFault_fault (k : FaultKind) (op : Byte) (cb : Bool) (s : State) : (enterFault k op cb s).fault = some ⟨k, op, cb, s.fetchAddr⟩ := rfl
@[simp] theorem enterFault_cfg (k : FaultKind) (op : Byte) (cb : Bool) (s : State) : (enterFault k op cb s).cfg = s.cfg := rfl
@[simp] theorem enterFault_env (k : FaultKind) (op : Byte) (cb : Bool) (s : State) : (enterFault k op cb s).env = s.env := rfl
@[simp] theorem enterFault_bus (k : FaultKind) (op : Byte) (cb : Bool) (s : State) : (enterFault k op cb s).bus = s.bus := rfl

/-! ### memRead -/

@[simp] theorem memRead_a (x : Addr) (s : State) : (memRead x s).2.a = s.a := rfl
@[simp] theorem memRead_b (x : Addr) (s : State) : (memRead x s).2.b = s.b := rfl
@[simp] theorem memRead_c (x : Addr) (s : State) : (memRead x s).2.c = s.c := rfl
@[simp] theorem memRead_d (x : Addr) (s : State) : (memRead x s).2.d = s.d := rfl
@[simp] theorem memRead_e (x : Addr) (s : State) : (memRead x s).2.e = s.e := rfl
@[simp] theorem memRead_h (x : Addr) (s : State) : (memRead x s).2.h = s.h := rfl
@[simp] theorem memRead_l (x : Addr) (s : State) : (memRead x s).2.l = s.l := rfl
@[simp] theorem memRead_f (x : Addr) (s : State) : (memRead x s).2.f = s.f := rfl
@[simp] theorem memRead_pc (x : Addr) (s : State) : (memRead x s).2.pc = s.pc := rfl
@[simp] theorem memRead_sp (x : Addr) (s : State) : (memRead x s).2.sp = s.sp := rfl
@[simp] theorem memRead_opcode (x : Addr) (s : State) : (memRead x s).2.opcode = s.opcode := rfl
@[simp] theorem memRead_cb (x : Addr) (s : State) : (memRead x s).2.cb = s.cb := rfl
@[simp] theorem memRead_fetchAddr (x : Addr) (s : State) : (memRead x s).2.fetchAddr = s.fetchAddr := rfl
@[simp] theorem memRead_phase (x : Addr) (s : State) : (memRead x s).2.phase = s.phase := rfl
@[simp] theorem memRead_handler (x : Addr) (s : State) : (memRead x s).2.handler = s.handler := rfl
@[simp] theorem memRead_stage (x : Addr) (s : State) : (memRead x s).2.stage = s.stage := rfl
@[simp] theorem memRead_scratch8 (x : Addr) (s : State) : (memRead x s).2.scratch8 = s.scratch8 := rfl
@[simp] theorem memRead_scratch16 (x : Addr) (s : State) : (memRead x s).2.scratch16 = s.scratch16 := rfl
@[simp] theorem memRead_fault (x : Addr) (s : State) : (memRead x s).2.fault = s.fault := rfl
@[simp] theorem memRead_cfg (x : Addr) (s : State) : (memRead x s).2.cfg = s.cfg := rfl
@[simp] theorem memRead_env (x : Addr) (s : State) : (memRead x s).2.env = s.env.afterRead x := rfl
@[simp] theorem memRead_bus (x : Addr) (s : State) : (memRead x s).2.bus = s.bus ++ [.rd x (s.env.peek x)] := rfl

@[simp] theorem memRead_value (x : Addr) (s : State) : (memRead x s).1 = s.env.peek x := rfl

/-! ### memWrite -/

@[simp] theorem memWrite_a (x : Addr) (v : Byte) (s : State) : (memWrite x v s).a = s.a := rfl
@[simp] theorem memWrite_b (x : Addr) (v : Byte) (s : State) : (memWrite x v s).b = s.b := rfl
@[simp] theorem memWrite_c (x : Addr) (v : Byte) (s : State) : (memWrite x v s).c = s.c := rfl
@[simp] theorem memWrite_d (x : Addr) (v : Byte) (s : State) : (memWrite x v s).d = s.d := rfl
@[simp] theorem memWrite_e (x : Addr) (v : Byte) (s : State) : (memWrite x v s).e = s.e := rfl
@[simp] theorem memWrite_h (x : Addr) (v : Byte) (s : State) : (memWrite x v s).h = s.h := rfl
@[simp] theorem memWrite_l (x : Addr) (v : Byte) (s : State) : (memWrite x v s).l = s.l := rfl
@[simp] theorem memWrite_f (x : Addr) (v : Byte) (s : State) : (memWrite x v s).f = s.f := rfl
@[simp] theorem memWrite_pc (x : Addr) (v : Byte) (s : State) : (memWrite x v s).pc = s.pc := rfl
@[simp] theorem memWrite_sp (x : Addr) (v : Byte) (s : State) : (memWrite x v s).sp = s.sp := rfl
@[simp] theorem memWrite_opcode (x : Addr) (v : Byte) (s : State) : (memWrite x v s).opcode = s.opcode := rfl
@[simp] theorem memWrite_cb (x : Addr) (v : Byte) (s : State) : (memWrite x v s).cb = s.cb := rfl
@[simp] theorem memWrite_fetchAddr (x : Addr) (v : Byte) (s : State) : (memWrite x v s).fetchAddr = s.fetchAddr := rfl
@[simp] theorem memWrite_phase (x : Addr) (v : Byte) (s : State) : (memWrite x v s).phase = s.phase := rfl
@[simp] theorem memWrite_handler (x : Addr) (v : Byte) (s : State) : (memWrite x v s).handler = s.handler := rfl
@[simp] theorem memWrite_stage (x : Addr) (v : Byte) (s : State) : (memWrite x v s).stage = s.stage := rfl
@[simp] theorem memWrite_scratch8 (x : Addr) (v : Byte) (s : State) : (memWrite x v s).scratch8 = s.scratch8 := rfl
@[simp] theorem memWrite_scratch16 (x : Addr) (v : Byte) (s : State) : (memWrite x v s).scratch16 = s.scratch16 := rfl
@[simp] theorem memWrite_fault (x : Addr) (v : Byte) (s : State) : (memWrite x v s).fault = s.fault := rfl
@[simp] theorem memWrite_cfg (x : Addr) (v : Byte) (s : State) : (memWrite x v s).cfg = s.cfg := rfl
@[simp] theorem memWrite_env (x : Addr) (v : Byte) (s : State) : (memWrite x v s).env = s.env.write x v := rfl
@[simp] theorem memWrite_bus (x : Addr) (v : Byte) (s : State) : (memWrite x v s).bus = s.bus ++ [.wr x v] := rfl

/-! ### imm8 -/

@[simp] theorem imm8_a (s : State) : (imm8 s).2.a = s.a := rfl
@[simp] theorem imm8_b (s : State) : (imm8 s).2.b = s.b := rfl
@[simp] theorem imm8_c (s : State) : (imm8 s).2.c = s.c := rfl
@[simp] theorem imm8_d (s : State) : (imm8 s).2.d = s.d := rfl
@[simp] theorem imm8_e (s : State) : (imm8 s).2.e = s.e := rfl
@[simp] theorem imm8_h (s : State) : (imm8 s).2.h = s.h := rfl
@[simp] theorem imm8_l (s : State) : (imm8 s).2.l = s.l := rfl
@[simp] theorem imm8_f (s : State) : (imm8 s).2.f = s.f := rfl
@[simp] theorem imm8_pc (s : State) : (imm8 s).2.pc = s.pc + 1 := rfl
@[simp] theorem imm8_sp (s : State) : (imm8 s).2.sp = s.sp := rfl
@[simp] theorem imm8_opcode (s : State) : (imm8 s).2.opcode = s.opcode := rfl
@[simp] theorem imm8_cb (s : State) : (imm8 s).2.cb = s.cb := rfl
@[simp] theorem imm8_fetchAddr (s : State) : (imm8 s).2.fetchAddr = s.fetchAddr := rfl
@[simp] theorem imm8_phase (s : State) : (imm8 s).2.phase = s.phase := rfl
@[simp] theorem imm8_handler (s : State) : (imm8 s).2.handler = s.handler := rfl
@[simp] theorem imm8_stage (s : State) : (imm8 s).2.stage = s.stage := rfl
@[simp] theorem imm8_scratch8 (s : State) : (imm8 s).2.scratch8 = s.scratch8 := rfl
@[simp] theorem imm8_scratch16 (s : State) : (imm8 s).2.scratch16 = s.scratch16 := rfl
@[simp] theorem imm8_fault (s : State) : (imm8 s).2.fault = s.fault := rfl
@[simp] theorem imm8_cfg (s : State) : (imm8 s).2.cfg = s.cfg := rfl
@[simp] theorem imm8_env (s : State) : (imm8 s).2.env = s.env.afterRead s.pc := rfl
@[simp] theorem imm8_bus (s : State) : (imm8 s).2.bus = s.bus ++ [.rd s.pc (s.env.peek s.pc)] := rfl

@[simp] theorem imm8_value (s : State) : (imm8 s).1 = s.env.peek s.pc := rfl

/-! ### imm16 -/

@[simp] theorem imm16_a (s : State) : (imm16 s).2.a = s.a := rfl
@[simp] theorem imm16_b (s : State) : (imm16 s).2.b = s.b := rfl
@[simp] theorem imm16_c (s : State) : (imm16 s).2.c = s.c := rfl
@[simp] theorem imm16_d (s : State) : (imm16 s).2.d = s.d := rfl
@[simp] theorem imm16_e (s : State) : (imm16 s).2.e = s.e := rfl
@[simp] theorem imm16_h (s : State) : (imm16 s).2.h = s.h := rfl
@[simp] theorem imm16_l (s : State) : (imm16 s).2.l = s.l := rfl
@[simp] theorem imm16_f (s : State) : (imm16 s).2.f = s.f := rfl
@[simp] theorem imm16_pc (s : State) : (imm16 s).2.pc = s.pc + 1 + 1 := rfl
@[simp] theorem imm16_sp (s : State) : (imm16 s).2.sp = s.sp := rfl
@[simp] theorem imm16_opcode (s : State) : (imm16 s).2.opcode = s.opcode := rfl
@[simp] theorem imm16_cb (s : State) : (imm16 s).2.cb = s.cb := rfl
@[simp] theorem imm16_fetchAddr (s : State) : (imm16 s).2.fetchAddr = s.fetchAddr := rfl
@[simp] theorem imm16_phase (s : State) : (imm16 s).2.phase = s.phase := rfl
@[simp] theorem imm16_handler (s : State) : (imm16 s).2.handler = s.handler := rfl
@[simp] theorem imm16_stage (s : State) : (imm16 s).2.stage = s.stage := rfl
@[simp] theorem imm16_scratch8 (s : State) : (imm16 s).2.scratch8 = s.scratch8 := rfl
@[simp] theorem imm16_scratch16 (s : State) : (imm16 s).2.scratch16 = s.scratch16 := rfl
@[simp] theorem imm16_fault (s : State) : (imm16 s).2.fault = s.fault := rfl
@[simp] theorem imm16_cfg (s : State) : (imm16 s).2.cfg = s.cfg := rfl
@[simp] theorem imm16_env (s : State) : (imm16 s).2.env = (s.env.afterRead s.pc).afterRead (s.pc + 1) := rfl

@[simp] theorem imm16_bus (s : State) : (imm16 s).2.bus =
    s.bus ++ [.rd s.pc (s.env.peek s.pc)] ++ [.rd (s.pc + 1) ((s.env.afterRead s.pc).peek (s.pc + 1))] := rfl
@[simp] theorem imm16_value (s : State) :
    (imm16 s).1 = join ((s.env.afterRead s.pc).peek (s.pc + 1)) (s.env.peek s.pc) := rfl

/-! ### fetch -/

@[simp] theorem fetch_a (s : State) : (fetch s).a = s.a := rfl
@[simp] theorem fetch_b (s : State) : (fetch s).b = s.b := rfl
@[simp] theorem fetch_c (s : State) : (fetch s).c = s.c := rfl
@[simp] theorem fetch_d (s : State) : (fetch s).d = s.d := rfl
@[simp] theorem fetch_e (s : State) : (fetch s).e = s.e := rfl
@[simp] theorem fetch_h (s : State) : (fetch s).h = s.h := rfl
@[simp] theorem fetch_l (s : State) : (fetch s).l = s.l := rfl
@[simp] theorem fetch_f (s : State) : (fetch s).f = s.f := rfl
@[simp] theorem fetch_pc (s : State) : (fetch s).pc = s.pc + 1 := rfl
@[simp] theorem fetch_sp (s : State) : (fetch s).sp = s.sp := rfl
@[simp] theorem fetch_opcode (s : State) : (fetch s).opcode = s.env.peek s.pc := rfl
@[simp] theorem fetch_cb (s : State) : (fetch s).cb = false := rfl
@[simp] theorem fetch_fetchAddr (s : State) : (fetch s).fetchAddr = s.pc := rfl
@[simp] theorem fetch_phase (s : State) : (fetch s).phase = .decode := rfl
@[simp] theorem fetch_handler (s : State) : (fetch s).handler = s.handler := rfl
@[simp] theorem fetch_stage (s : State) : (fetch s).stage = s.stage := rfl
@[simp] theorem fetch_scratch8 (s : State) : (fetch s).scratch8 = s.scratch8 := rfl
@[simp] theorem fetch_scratch16 (s : State) : (fetch s).scratch16 = s.scratch16 := rfl
@[simp] theorem fetch_fault (s : State) : (fetch s).fault = s.fault := rfl
@[simp] theorem fetch_cfg (s : State) : (fetch s).cfg = s.cfg := rfl
@[simp] theorem fetch_env (s : State) : (fetch s).env = s.env.afterRead s.pc := rfl
@[simp] theorem fetch_bus (s : State) : (fetch s).bus = [.rd s.pc (s.env.peek s.pc)] := rfl

/-! ### fetchCb -/

@[simp] theorem fetchCb_a (s : State) : (fetchCb s).a = s.a := rfl
@[simp] theorem fetchCb_b (s : State) : (fetchCb s).b = s.b := rfl
@[simp] theorem fetchCb_c (s : State) : (fetchCb s).c = s.c := rfl
@[simp] theorem fetchCb_d (s : State) : (fetchCb s).d = s.d := rfl
@[simp] theorem fetchCb_e (s : State) : (fetchCb s).e = s.e := rfl
@[simp] theorem fetchCb_h (s : State) : (fetchCb s).h = s.h := rfl
@[simp] theorem fetchCb_l (s : State) : (fetchCb s).l = s.l := rfl
@[simp] theorem fetchCb_f (s : State) : (fetchCb s).f = s.f := rfl
@[simp] theorem fetchCb_pc (s : State) : (fetchCb s).pc = s.pc + 1 := rfl
@[simp] theorem fetchCb_sp (s : State) : (fetchCb s).sp = s.sp := rfl
@[simp] theorem fetchCb_opcode (s : State) : (fetchCb s).opcode = s.env.peek s.pc := rfl
@[simp] theorem fetchCb_cb (s : State) : (fetchCb s).cb = true := rfl
@[simp] theorem fetchCb_fetchAddr (s : State) : (fetchCb s).fetchAddr = s.pc := rfl
@[simp] theorem fetchCb_phase (s : State) : (fetchCb s).phase = .decode := rfl
@[simp] theorem fetchCb_handler (s : State) : (fetchCb s).handler = s.handler := rfl
@[simp] theorem fetchCb_stage (s : State) : (fetchCb s).stage = s.stage := rfl
@[simp] theorem fetchCb_scratch8 (s : State) : (fetchCb s).scratch8 = s.scratch8 := rfl
@[simp] theorem fetchCb_scratch16 (s : State) : (fetchCb s).scratch16 = s.scratch16 := rfl
@[simp] theorem fetchCb_fault (s : State) : (fetchCb s).fault = s.fault := rfl
@[simp] theorem fetchCb_cfg (s : State) : (fetchCb s).cfg = s.cfg := rfl
@[simp] theorem fetchCb_env (s : State) : (fetchCb s).env = s.env.afterRead s.pc := rfl
@[simp] theorem fetchCb_bus (s : State) : (fetchCb s).bus = s.bus ++ [.rd s.pc (s.env.peek s.pc)] := rfl

/-! ### push16 -/

@[simp] theorem push16_a (w : Word) (s : State) : (push16 w s).a = s.a := rfl
@[simp] theorem push16_b (w : Word) (s : State) : (push16 w s).b = s.b := rfl
@[simp] theorem push16_c (w : Word) (s : State) : (push16 w s).c = s.c := rfl
@[simp] theorem push16_d (w : Word) (s : State) : (push16 w s).d = s.d := rfl
@[simp] theorem push16_e (w : Word) (s : State) : (push16 w s).e = s.e := rfl
@[simp] theorem push16_h (w : Word) (s : State) : (push16 w s).h = s.h := rfl
@[simp] theorem push16_l (w : Word) (s : State) : (push16 w s).l = s.l := rfl
@[simp] theorem push16_f (w : Word) (s : State) : (push16 w s).f = s.f := rfl
@[simp] theorem push16_pc (w : Word) (s : State) : (push16 w s).pc = s.pc := rfl
@[simp] theorem push16_sp (w : Word) (s : State) : (push16 w s).sp = s.sp - 1 - 1 := rfl
@[simp] theorem push16_opcode (w : Word) (s : State) : (push16 w s).opcode = s.opcode := rfl
@[simp] theorem push16_cb (w : Word) (s : State) : (push16 w s).cb = s.cb := rfl
@[simp] theorem push16_fetchAddr (w : Word) (s : State) : (push16 w s).fetchAddr = s.fetchAddr := rfl
@[simp] theorem push16_phase (w : Word) (s : State) : (push16 w s).phase = s.phase := rfl
@[simp] theorem push16_handler (w : Word) (s : State) : (push16 w s).handler = s.handler := rfl
@[simp] theorem push16_stage (w : Word) (s : State) : (push16 w s).stage = s.stage := rfl
@[simp] theorem push16_scratch8 (w : Word) (s : State) : (push16 w s).scratch8 = s.scratch8 := rfl
@[simp] theorem push16_scratch16 (w : Word) (s : State) : (push16 w s).scratch16 = s.scratch16 := rfl
@[simp] theorem push16_fault (w : Word) (s : State) : (push16 w s).fault = s.fault := rfl
@[simp] theorem push16_cfg (w : Word) (s : State) : (push16 w s).cfg = s.cfg := rfl

@[simp] theorem push16_env (w : Word) (s : State) : (push16 w s).env =
    (s.env.write (s.sp - 1) (hi8 w)).write (s.sp - 1 - 1) (lo8 w) := rfl
@[simp] theorem push16_bus (w : Word) (s : State) : (push16 w s).bus =
    s.bus ++ [.wr (s.sp - 1) (hi8 w)] ++ [.wr (s.sp - 1 - 1) (lo8 w)] := rfl

/-! ### setReg8 and setReg16 -/

@[simp] theorem setReg8_f (s : State) (r : Reg8) (v : Byte) : (s.setReg8 r v).f = s.f := by cases r <;> rfl
@[simp] theorem setReg8_pc (s : State) (r : Reg8) (v : Byte) : (s.setReg8 r v).pc = s.pc := by cases r <;> rfl
@[simp] theorem setReg8_sp (s : State) (r : Reg8) (v : Byte) : (s.setReg8 r v).sp = s.sp := by cases r <;> rfl
@[simp] theorem setReg8_opcode (s : State) (r : Reg8) (v : Byte) : (s.setReg8 r v).opcode = s.opcode := by cases r <;> rfl
@[simp] theorem setReg8_cb (s : State) (r : Reg8) (v : Byte) : (s.setReg8 r v).cb = s.cb := by cases r <;> rfl
@[simp] theorem setReg8_fetchAddr (s : State) (r : Reg8) (v : Byte) : (s.setReg8 r v).fetchAddr = s.fetchAddr := by cases r <;> rfl
@[simp] theorem setReg8_phase (s : State) (r : Reg8) (v : Byte) : (s.setReg8 r v).phase = s.phase := by cases r <;> rfl
@[simp] theorem setReg8_handler (s : State) (r : Reg8) (v : Byte) : (s.setReg8 r v).handler = s.handler := by cases r <;> rfl
@[simp] theorem setReg8_stage (s : State) (r : Reg8) (v : Byte) : (s.setReg8 r v).stage = s.stage := by cases r <;> rfl
@[simp] theorem setReg8_scratch8 (s : State) (r : Reg8) (v : Byte) : (s.setReg8 r v).scratch8 = s.scratch8 := by cases r <;> rfl
@[simp] theorem setReg8_scratch16 (s : State) (r : Reg8) (v : Byte) : (s.setReg8 r v).scratch16 = s.scratch16 := by cases r <;> rfl
@[simp] theorem setReg8_fault (s : State) (r : Reg8) (v : Byte) : (s.setReg8 r v).fault = s.fault := by cases r <;> rfl
@[simp] theorem setReg8_cfg (s : State) (r : Reg8) (v : Byte) : (s.setReg8 r v).cfg = s.cfg := by cases r <;> rfl
@[simp] theorem setReg8_env (s : State) (r : Reg8) (v : Byte) : (s.setReg8 r v).env = s.env := by cases r <;> rfl
@[simp] theorem setReg8_bus (s : State) (r : Reg8) (v : Byte) : (s.setReg8 r v).bus = s.bus := by cases r <;> rfl

@[simp] theorem setReg16_pc (s : State) (rr : Reg16) (w : Word) : (s.setReg16 rr w).pc = s.pc := by cases rr <;> rfl
@[simp] theorem setReg16_opcode (s : State) (rr : Reg16) (w : Word) : (s.setReg16 rr w).opcode = s.opcode := by cases rr <;> rfl
@[simp] theorem setReg16_cb (s : State) (rr : Reg16) (w : Word) : (s.setReg16 rr w).cb = s.cb := by cases rr <;> rfl
@[simp] theorem setReg16_fetchAddr (s : State) (rr : Reg16) (w : Word) : (s.setReg16 rr w).fetchAddr = s.fetchAddr := by cases rr <;> rfl
@[simp] theorem setReg16_phase (s : State) (rr : Reg16) (w : Word) : (s.setReg16 rr w).phase = s.phase := by cases rr <;> rfl
@[simp] theorem setReg16_handler (s : State) (rr : Reg16) (w : Word) : (s.setReg16 rr w).handler = s.handler := by cases rr <;> rfl
@[simp] theorem setReg16_stage (s : State) (rr : Reg16) (w : Word) : (s.setReg16 rr w).stage = s.stage := by cases rr <;> rfl
@[simp] theorem setReg16_scratch8 (s : State) (rr : Reg16) (w : Word) : (s.setReg16 rr w).scratch8 = s.scratch8 := by cases rr <;> rfl
@[simp] theorem setReg16_scratch16 (s : State) (rr : Reg16) (w : Word) : (s.setReg16 rr w).scratch16 = s.scratch16 := by cases rr <;> rfl
@[simp] theorem setReg16_fault (s : State) (rr : Reg16) (w : Word) : (s.setReg16 rr w).fault = s.fault := by cases rr <;> rfl
@[simp] theorem setReg16_cfg (s : State) (rr : Reg16) (w : Word) : (s.setReg16 rr w).cfg = s.cfg := by cases rr <;> rfl
@[simp] theorem setReg16_env (s : State) (rr : Reg16) (w : Word) : (s.setReg16 rr w).env = s.env := by cases rr <;> rfl
@[simp] theorem setReg16_bus (s : State) (rr : Reg16) (w : Word) : (s.setReg16 rr w).bus = s.bus := by cases rr <;> rfl

/-- A write of an 8-bit register changes that register and no other. -/
@[simp] theorem reg8_setReg8 (s : State) (r q : Reg8) (v : Byte) :
    (s.setReg8 r v).reg8 q = if q = r then v else s.reg8 q := by
  cases r <;> cases q <;> rfl

theorem getLsbD_join (h l : Byte) (i : Nat) :
    (join h l).getLsbD i = if i < 8 then l.getLsbD i else h.getLsbD (i - 8) := by
  have e := BitVec.getLsbD_append (x := h) (y := l) (i := i)
  exact e

theorem join_hi_lo (w : Word) : join (hi8 w) (lo8 w) = w := by
  apply BitVec.eq_of_getLsbD_eq
  intro i hi
  rw [getLsbD_join]
  simp only [hi8, lo8, BitVec.getLsbD_extractLsb']
  split
  · simp [*]
  · have h1 : 8 + (i - 8) = i := by omega
    have h2 : i - 8 < 8 := by omega
    simp [h1, h2]

@[simp] theorem hi8_join (h l : Byte) : hi8 (join h l) = h := by
  apply BitVec.eq_of_getLsbD_eq
  intro i hi
  simp [hi8, getLsbD_join, hi]

@[simp] theorem lo8_join (h l : Byte) : lo8 (join h l) = l := by
  apply BitVec.eq_of_getLsbD_eq
  intro i hi
  simp [lo8, getLsbD_join, hi]

/-- A pair or SP reads back what was written, except that AF drops the low nibble of F. -/
theorem reg16_setReg16 (s : State) (rr : Reg16) (w : Word) (h : rr ≠ .af) : (s.setReg16 rr w).reg16 rr = w := by
  cases rr <;> first | exact join_hi_lo w | rfl | exact absurd rfl h

@[simp] theorem reg8_complete (s : State) (q : Reg8) : (complete s).reg8 q = s.reg8 q := by cases q <;> rfl
@[simp] theorem reg8_memWrite (x : Addr) (v : Byte) (s : State) (q : Reg8) :
    (memWrite x v s).reg8 q = s.reg8 q := by cases q <;> rfl
@[simp] theorem reg8_memRead (x : Addr) (s : State) (q : Reg8) :
    (memRead x s).2.reg8 q = s.reg8 q := by cases q <;> rfl
@[simp] theorem reg16_complete (s : State) (q : Reg16) : (complete s).reg16 q = s.reg16 q := by cases q <;> rfl
@[simp] theorem reg16_memWrite (x : Addr) (v : Byte) (s : State) (q : Reg16) :
    (memWrite x v s).reg16 q = s.reg16 q := by cases q <;> rfl
@[simp] theorem reg16_memRead (x : Addr) (s : State) (q : Reg16) :
    (memRead x s).2.reg16 q = s.reg16 q := by cases q <;> rfl

end Sys2Proof.Machine
end

