-- ==== Sys2Proof/Laws/Operands.lean ====
section
/-! SUPPORT. What the shared operations can do, once for each: the operand reads and writes, and the handlers. Later
proofs cite these instead of unfolding an operation. -/

namespace Sys2Proof.Machine

/-! ## 8-bit operands -/

/-- The environment after the read of an 8-bit operand: after one bus read at its effective address, or as before. -/
theorem Operand8.read_env (k : Operand8) (s : State) :
    (k.read s).2.env =
      match k.addr s with
      | none => s.env
      | some a => s.env.afterRead a := by
  cases k <;> rfl
@[simp] theorem Operand8.read_cfg (k : Operand8) (s : State) : (k.read s).2.cfg = s.cfg := by cases k <;> rfl
@[simp] theorem Operand8.read_f (k : Operand8) (s : State) : (k.read s).2.f = s.f := by cases k <;> rfl
@[simp] theorem Operand8.read_pc (k : Operand8) (s : State) : (k.read s).2.pc = s.pc := by cases k <;> rfl
@[simp] theorem Operand8.read_sp (k : Operand8) (s : State) : (k.read s).2.sp = s.sp := by cases k <;> rfl
@[simp] theorem Operand8.read_a (k : Operand8) (s : State) : (k.read s).2.a = s.a := by cases k <;> rfl
@[simp] theorem Operand8.read_opcode (k : Operand8) (s : State) : (k.read s).2.opcode = s.opcode := by cases k <;> rfl
@[simp] theorem Operand8.read_cb (k : Operand8) (s : State) : (k.read s).2.cb = s.cb := by cases k <;> rfl
@[simp] theorem Operand8.read_fetchAddr (k : Operand8) (s : State) : (k.read s).2.fetchAddr = s.fetchAddr := by
  cases k <;> rfl
@[simp] theorem Operand8.read_fault (k : Operand8) (s : State) : (k.read s).2.fault = s.fault := by cases k <;> rfl

/-- The value an 8-bit operand reads: a register, the immediate, or the byte at its effective address. -/
theorem Operand8.read_value (k : Operand8) (s : State) :
    (k.read s).1 =
      match k with
      | .reg r => s.reg8 r
      | .imm8 n => n
      | k => s.env.peek ((k.addr s).getD 0) := by
  cases k <;> rfl

/-- The bus reads of an 8-bit operand: one, at its effective address, or none (R173). -/
theorem Operand8.read_bus (k : Operand8) (s : State) :
    (k.read s).2.bus =
      match k.addr s with
      | none => s.bus
      | some a => s.bus ++ [.rd a (s.env.peek a)] := by
  cases k <;> rfl

/-- A read changes no register, but that HL moves for `IndInc` and `IndDec`. -/
theorem Operand8.read_reg8 (k : Operand8) (s : State) (h1 : k ≠ .indInc) (h2 : k ≠ .indDec) (r : Reg8) :
    (k.read s).2.reg8 r = s.reg8 r := by
  cases k <;> first | exact absurd rfl h1 | exact absurd rfl h2 | (cases r <;> rfl)

/-- A write of an 8-bit operand answers a next state, but for an immediate (R165). -/
theorem Operand8.write_answers (k : Operand8) (v : Byte) (s : State) :
    (∃ n, k = .imm8 n ∧ k.write v s = raiseMisuse s) ∨ ∃ t, k.write v s = .next t := by
  cases k
  case imm8 n => exact .inl ⟨n, rfl, rfl⟩
  all_goals exact .inr ⟨_, rfl⟩

/-- What a write of an 8-bit operand keeps, and what it does to the environment. -/
theorem Operand8.write_next {k : Operand8} {v : Byte} {s t : State} (h : k.write v s = .next t) :
    t.f = s.f ∧ t.pc = s.pc ∧ t.sp = s.sp ∧ t.opcode = s.opcode ∧ t.cb = s.cb ∧ t.fetchAddr = s.fetchAddr ∧
      t.fault = s.fault ∧ t.cfg = s.cfg ∧
      match k.addr s with
      | none => t.env = s.env ∧ t.bus = s.bus
      | some a => t.env = s.env.write a v ∧ t.bus = s.bus ++ [.wr a v] := by
  cases k
  case imm8 n => cases h
  case reg r =>
    injection h with h
    subst h
    exact ⟨by simp, by simp, by simp, by simp, by simp, by simp, by simp, by simp, by simp, by simp⟩
  all_goals
    injection h with h
    subst h
    exact ⟨rfl, rfl, rfl, rfl, rfl, rfl, rfl, rfl, rfl, rfl⟩

/-! ## 16-bit operands -/

/-- The environment after the read of a 16-bit operand: after two bus reads, or as before. -/
theorem Operand16.read_env (k : Operand16) (s : State) :
    (k.read s).2.env =
      match k with
      | .direct16 nn => (s.env.afterRead nn).afterRead (nn + 1)
      | _ => s.env := by
  cases k <;> rfl
@[simp] theorem Operand16.read_cfg (k : Operand16) (s : State) : (k.read s).2.cfg = s.cfg := by cases k <;> rfl
@[simp] theorem Operand16.read_f (k : Operand16) (s : State) : (k.read s).2.f = s.f := by cases k <;> rfl
@[simp] theorem Operand16.read_pc (k : Operand16) (s : State) : (k.read s).2.pc = s.pc := by cases k <;> rfl
@[simp] theorem Operand16.read_sp (k : Operand16) (s : State) : (k.read s).2.sp = s.sp := by cases k <;> rfl
@[simp] theorem Operand16.read_fault (k : Operand16) (s : State) : (k.read s).2.fault = s.fault := by cases k <;> rfl

/-- A write of a 16-bit operand answers a next state, but for an immediate (R165). -/
theorem Operand16.write_answers (k : Operand16) (w : Word) (s : State) :
    (∃ nn, k = .imm16 nn ∧ k.write w s = raiseMisuse s) ∨ ∃ t, k.write w s = .next t := by
  cases k
  case imm16 nn => exact .inl ⟨nn, rfl, rfl⟩
  all_goals exact .inr ⟨_, rfl⟩

/-- What a write of a 16-bit operand keeps, and what it does to the environment: nothing, or two bytes, low byte first. -/
theorem Operand16.write_next {k : Operand16} {w : Word} {s t : State} (h : k.write w s = .next t) :
    t.pc = s.pc ∧ t.opcode = s.opcode ∧ t.cb = s.cb ∧ t.fetchAddr = s.fetchAddr ∧ t.fault = s.fault ∧ t.cfg = s.cfg ∧
      (k ≠ .reg16 .af → t.f = s.f) ∧
      match k with
      | .direct16 nn => t.env = (s.env.write nn (lo8 w)).write (nn + 1) (hi8 w) ∧
          t.bus = s.bus ++ [.wr nn (lo8 w), .wr (nn + 1) (hi8 w)]
      | _ => t.env = s.env ∧ t.bus = s.bus := by
  cases k
  case imm16 nn => cases h
  case reg16 rr =>
    injection h with h
    subst h
    refine ⟨by simp, by simp, by simp, by simp, by simp, by simp, ?_, by simp, by simp⟩
    intro ha
    cases rr <;> first | rfl | exact absurd rfl ha
  case direct16 nn =>
    injection h with h
    subst h
    refine ⟨rfl, rfl, rfl, rfl, rfl, rfl, fun _ => rfl, rfl, ?_⟩
    simp [memWrite16]

/-! ## The handlers -/

/-- "fetch next" after an operation: it answers a next state exactly if the operation does. -/
theorem thenComplete_next {r : Result} {t : State} : thenComplete r = .next t ↔ ∃ s, r = .next s ∧ t = complete s := by
  cases r with
  | next s => exact ⟨fun h => ⟨s, rfl, by injection h with h; exact h.symm⟩,
      fun ⟨s', h, ht⟩ => by injection h with h; subst h; rw [ht]; rfl⟩
  | fault r => exact ⟨nofun, fun ⟨_, h, _⟩ => nomatch h⟩
  | refused r => exact ⟨nofun, fun ⟨_, h, _⟩ => nomatch h⟩

/-- What `LD` answers. -/
theorem ld8_next {dst src : Operand8} {s t : State} (h : ld8 dst src s = .next t) :
    ∃ s', dst.write (src.read s).1 (src.read s).2 = .next s' ∧ t = complete s' :=
  thenComplete_next.mp h

/-- What `LD16` answers. -/
theorem ld16_next {dst src : Operand16} {s t : State} (h : ld16 dst src s = .next t) :
    ∃ s', dst.write (src.read s).1 (src.read s).2 = .next s' ∧ t = complete s' :=
  thenComplete_next.mp h

/-- What a read-modify-write handler answers: the flags come from the operand read and the old carry, and are written whatever the write does. -/
theorem modify_next {op : Byte → Byte → Byte × Byte} {k : Operand8} {s t : State} (h : modify op k s = .next t) :
    ∃ s', k.write (op (k.read s).1 s.f).1 { (k.read s).2 with f := (op (k.read s).1 s.f).2 } = .next s' ∧
      t = complete s' := by
  have e : modify op k s =
      thenComplete (k.write (op (k.read s).1 s.f).1 { (k.read s).2 with f := (op (k.read s).1 s.f).2 }) := by
    simp [modify]
  rw [e] at h
  exact thenComplete_next.mp h

end Sys2Proof.Machine
end

