-- ==== Sys2Proof/Laws/Tick.lean ====
section
/-! SUPPORT. What the operand operators do at the tick level: when they answer (R172), and that a write writes the value it
is given (R160). Then what a run of controller calls does once a handler has started: as many calls as the rest of its
stages need ticks, the controller in Execute before the last, and the state that the stages one after another leave. -/

namespace Sys2Proof.Machine

/-! ## Operators -/

/-- An operator with more than one micro-step to go performs the next one and reports "not yet" (R172). -/
theorem operatorTick_pending {α : Type} {stages : List Stage} {value : State → α} {done : Nat} {st next : Stage}
    {rest : List Stage} (h : stages.drop done = st :: next :: rest) (s : State) :
    operatorTick stages value done s = (.pending, st.run s) := by
  simp only [operatorTick, h]

/-- An operator with one micro-step to go performs it and answers (R172). -/
theorem operatorTick_ready {α : Type} {stages : List Stage} {value : State → α} {done : Nat} {st : Stage}
    (h : stages.drop done = [st]) (s : State) :
    operatorTick stages value done s = (.ready (value (st.run s)), st.run s) := by
  simp only [operatorTick, h]

/-- A complete operator does nothing (the model's choice, notes/assumptions 23). -/
theorem operatorTick_complete {α : Type} {stages : List Stage} {value : State → α} {done : Nat}
    (h : stages.length ≤ done) (s : State) : operatorTick stages value done s = (.ready (value s), s) := by
  simp only [operatorTick, List.drop_eq_nil_of_le h]

/-- The first `n` calls of an 8-bit write of one value. -/
def write8Ticks (k : Kind8) (v : Byte) : Nat → State → State
  | 0, s => s
  | n + 1, s => (write8Tick k v n (write8Ticks k v n s)).2

/-- The first `n` calls of a 16-bit write of one value. -/
def write16Ticks (k : Kind16) (w : Word) : Nat → State → State
  | 0, s => s
  | n + 1, s => (write16Tick k w n (write16Ticks k w n s)).2

/-- A write of an 8-bit register stores the value it is given, in the call that invoked it (R161). -/
theorem write8Tick_reg (r : Reg8) (v : Byte) (s : State) :
    write8Tick (.reg r) v 0 s = (.ready (), s.setReg8 r v) := by
  cases r <;> rfl

/-- A write of a pair or of SP stores the value it is given, in the call that invoked it (R162). -/
theorem write16Tick_reg16 (rr : Reg16) (w : Word) (s : State) :
    write16Tick (.reg16 rr) w 0 s = (.ready (), s.setReg16 rr w) := rfl

/-- An indirect write is the write of the instruction level, in one call (R166). -/
theorem write8Tick_ind (p : Ptr) (v : Byte) (s : State) :
    (write8Tick (.ind p) v 0 s).1 = .ready () ∧ (Operand8.ind p).write v s = .next (write8Tick (.ind p) v 0 s).2 :=
  ⟨rfl, rfl⟩
/-- The same of `IndInc` (R167). -/
theorem write8Tick_indInc (v : Byte) (s : State) :
    (write8Tick .indInc v 0 s).1 = .ready () ∧ Operand8.indInc.write v s = .next (write8Tick .indInc v 0 s).2 :=
  ⟨rfl, rfl⟩
/-- The same of `IndDec` (R167). -/
theorem write8Tick_indDec (v : Byte) (s : State) :
    (write8Tick .indDec v 0 s).1 = .ready () ∧ Operand8.indDec.write v s = .next (write8Tick .indDec v 0 s).2 :=
  ⟨rfl, rfl⟩
/-- The same of `HighC` (R168). -/
theorem write8Tick_highC (v : Byte) (s : State) :
    (write8Tick .highC v 0 s).1 = .ready () ∧ Operand8.highC.write v s = .next (write8Tick .highC v 0 s).2 :=
  ⟨rfl, rfl⟩

/-- Three calls of a `Direct8Abs` write take the address and write the value given, the last of them done (R169). -/
theorem write8Ticks_direct8Abs (v : Byte) (s : State) :
    let t := write8Ticks .direct8Abs v 3 s
    let u := memWrite (imm16 s).1 v (imm16 s).2
    t = { u with scratch8 := t.scratch8, scratch16 := (imm16 s).1 } ∧
      (write8Tick .direct8Abs v 0 s).1 = .pending ∧
      (write8Tick .direct8Abs v 1 (write8Ticks .direct8Abs v 1 s)).1 = .pending ∧
      (write8Tick .direct8Abs v 2 (write8Ticks .direct8Abs v 2 s)).1 = .ready () :=
  ⟨rfl, rfl, rfl, rfl⟩

/-- Two calls of a `Direct8High` write take the address byte and write the value given, the last of them done (R170). -/
theorem write8Ticks_direct8High (v : Byte) (s : State) :
    let t := write8Ticks .direct8High v 2 s
    let u := memWrite (highPage (imm8 s).1) v (imm8 s).2
    t = { u with scratch8 := (imm8 s).1 } ∧ (write8Tick .direct8High v 0 s).1 = .pending ∧
      (write8Tick .direct8High v 1 (write8Ticks .direct8High v 1 s)).1 = .ready () :=
  ⟨rfl, rfl, rfl⟩

/-- Four calls of a `Direct16` write take the address and write the value given, low byte first, the last of them done
(R171). -/
theorem write16Ticks_direct16 (w : Word) (s : State) :
    let t := write16Ticks .direct16 w 4 s
    let u := memWrite16 (imm16 s).1 w (imm16 s).2
    t = { u with scratch8 := t.scratch8, scratch16 := (imm16 s).1 } ∧
      (write16Tick .direct16 w 0 s).1 = .pending ∧
      (write16Tick .direct16 w 1 (write16Ticks .direct16 w 1 s)).1 = .pending ∧
      (write16Tick .direct16 w 2 (write16Ticks .direct16 w 2 s)).1 = .pending ∧
      (write16Tick .direct16 w 3 (write16Ticks .direct16 w 3 s)).1 = .ready () := by
  refine ⟨?_, rfl, rfl, rfl, rfl⟩
  simp only [write16Ticks, write16Tick, operatorTick, write16Stages, List.drop, Stage.run, Place.addr, Place.after,
    Datum.value, Datum16.value, imm16, memWrite16, memWrite]
  rfl

/-- A write of an immediate enters the protocol-misuse fault (R165). -/
theorem write8Tick_imm8 (v : Byte) (s : State) :
    (write8Tick .imm8 v 0 s).2 = enterFault .protocolMisuse s.opcode s.cb s := rfl
/-- The same of the 16-bit immediate (R165). -/
theorem write16Tick_imm16 (w : Word) (s : State) :
    (write16Tick .imm16 w 0 s).2 = enterFault .protocolMisuse s.opcode s.cb s := rfl

/-! ## Runs of calls -/

/-- A stage that stays inside its handler: neither the end of the CB prefix nor a misuse. -/
def Stage.plain : Stage → Bool
  | .misuse => false
  | .cbByte => false
  | _ => true

/-- A plain stage keeps where the controller is. -/
theorem Stage.run_keeps {st : Stage} (h : st.plain = true) (s : State) :
    (st.run s).phase = s.phase ∧ (st.run s).handler = s.handler ∧ (st.run s).stage = s.stage ∧
      (st.run s).cfg = s.cfg := by
  cases st
  case misuse => cases h
  case cbByte => cases h
  case load pl => cases pl <;> exact ⟨rfl, rfl, rfl, rfl⟩
  case loadHigh pl => cases pl <;> exact ⟨rfl, rfl, rfl, rfl⟩
  case store pl d => cases pl <;> exact ⟨rfl, rfl, rfl, rfl⟩
  case regWrite r d => cases r <;> exact ⟨rfl, rfl, rfl, rfl⟩
  case pairWrite r d => cases r <;> exact ⟨rfl, rfl, rfl, rfl⟩
  case jump cc => simp only [Stage.run]; split <;> exact ⟨rfl, rfl, rfl, rfl⟩
  all_goals exact ⟨rfl, rfl, rfl, rfl⟩

/-- The stages one after another, then "fetch next". -/
def runAll : List Stage → State → State
  | [], s => complete s
  | st :: rest, s => runAll rest (advance st s)

/-- How many of the stages take a tick. -/
def tickCount : List Stage → State → Nat
  | [], _ => 0
  | st :: rest, s => (if st.needsTick s then 1 else 0) + tickCount rest (advance st s)

/-- The rest of a handler, from its stage on. -/
theorem ticks_runAhead (rest : List Stage) : ∀ s : State, s.phase = .execute →
    s.pending = rest → (∀ st ∈ rest, st.plain = true) →
    ticks (tickCount rest s) (runAhead rest s) = runAll rest s ∧
      ∀ k, k < tickCount rest s → (ticks k (runAhead rest s)).phase = .execute := by
  induction rest with
  | nil => intro s _ _ _; exact ⟨rfl, fun k hk => absurd hk (Nat.not_lt_zero _)⟩
  | cons st rest ih =>
    intro s hp hd hall
    have hpl : st.plain = true := hall st (by simp)
    have hk := Stage.run_keeps hpl s
    have hm : st ≠ .misuse := by rintro rfl; cases hpl
    have hc : st ≠ .cbByte := by rintro rfl; cases hpl
    have hd' : (advance st s).pending = rest := by
      have e := congrArg (List.drop 1) hd
      simp only [State.pending, List.drop_drop] at e
      simpa [State.pending, State.stagesOf, advance, hk.2.1, hk.2.2.2] using e
    have ih' := ih (advance st s) (by simp only [advance, hk.1, hp]) hd' (fun x hx => hall x (by simp [hx]))
    simp only [runAhead, tickCount, runAll]
    by_cases hn : st.needsTick s = true
    · simp only [hn, if_true]
      have ht : tick s = runAhead rest (advance st s) := by
        simp only [tick, hp, hd]
        cases st <;> first | rfl | contradiction
      refine ⟨?_, ?_⟩
      · rw [Nat.add_comm]
        simp only [ticks]
        rw [ht]
        exact ih'.1
      · intro k hk
        cases k with
        | zero => exact hp
        | succ k =>
          simp only [ticks]
          rw [ht]
          exact ih'.2 k (by omega)
    · simp only [hn, hm, if_false, Nat.zero_add, Bool.false_eq_true]
      exact ih'

/-- The state in which a handler's first stage runs. -/
def startState (h : Handler) (s : State) : State := { s with phase := .execute, handler := h, stage := 0 }

/-- A handler, from Decode on. -/
theorem ticks_enterHandler {s : State} {h : Handler} (hh : dispatch s.cfg.implemented s.cb s.opcode = some h)
    (hpl : (s.stagesOf h).all Stage.plain = true) :
    ticks (tickCount (s.stagesOf h) (startState h s)) (enterHandler s) =
        runAll (s.stagesOf h) (startState h s) ∧
      ∀ k, k < tickCount (s.stagesOf h) (startState h s) → (ticks k (enterHandler s)).phase = .execute := by
  have e := ticks_runAhead (s.stagesOf h) (startState h s) rfl rfl (by simpa using hpl)
  simp only [enterHandler, hh]
  exact e

theorem tick_fetch {s : State} (h : s.phase = .fetch) : tick s = enterHandler (fetch s) := by
  simp only [tick, h]

/-- A fetch of the CB prefix, where it is in the configured set, waits one call in Execute, and the next call decodes the
byte after it (R148). -/
theorem tick_prefix {s : State} (h : s.phase = .fetch) (hb : s.env.peek s.pc = 0xCB)
    (hm : s.cfg.implemented.has 0xCB false = true) :
    (tick s).phase = .execute ∧ tick (tick s) = enterHandler (fetchCb (fetch s)) := by
  have e1 : dispatch (fetch s).cfg.implemented (fetch s).cb (fetch s).opcode = some .prefixCb := by
    have e : (fetch s).opcode = 0xCB := hb
    have em : (fetch s).cfg.implemented.has 0xCB false = true := hm
    have ec : (fetch s).cb = false := rfl
    rw [e, ec, dispatch, em]
    rfl
  have e2 : tick s = startState .prefixCb (fetch s) := by
    rw [tick_fetch h]
    simp only [enterHandler, e1]
    rfl
  rw [e2]
  exact ⟨rfl, rfl⟩

end Sys2Proof.Machine
end

