-- ==== Sys2Proof/Tests/Slice0.lean ====
section
/-! SUPPORT. The model's own tests. Expected values are the specification's: encodings from 30_encoding.md R103 and R110,
results from the vectors of 95_test_vectors.md (parts 1 and 2; part 3 for P5 and P7), each named in its comment. Then, for
every statement with hypotheses, a concrete state and operands that meet them. -/

namespace Sys2Proof.Tests

open Sys2Proof Sys2Proof.Machine

/-! ## Helpers -/

/-- The next state, if the outcome is one. -/
def nextOf : Result → Option State
  | .next t => some t
  | _ => none

/-- The state a fault stops in, if the outcome is one. -/
def faultOf : Result → Option State
  | .fault r => some r.state
  | _ => none

/-- Bytes in cells from an address on. -/
def cellsFrom (m : Memory) (a : Nat) : List Byte → Memory
  | [] => m
  | v :: rest => cellsFrom (m.set (a % 65536) v) (a + 1) rest

/-- The reset state under `FlatBus`, PC at an address, bytes there, and further cells. -/
def flat (at_ : Addr) (bytes : List Byte) (cells : List (Nat × Byte)) : State :=
  { State.reset with
    pc := at_
    env := { State.reset.env with
      cfg := { Config.default with bus := .flat }
      mem := cells.foldl (fun m c => m.set c.1 c.2) (cellsFrom [] at_.toNat bytes) } }

/-- The default configuration with a `BootRom`. -/
def withRom (rom : BootRom) : Config := { Config.default with bootRom := some rom }

/-- The same in working RAM under `RefBus`, with a blank `BootRom`. -/
def ref (at_ : Addr) (bytes : List Byte) (cells : List (Nat × Byte)) : State :=
  { State.reset with
    pc := at_
    env := { State.reset.env with
      cfg := withRom []
      mem := cells.foldl (fun m c => m.set c.1 c.2) (cellsFrom [] at_.toNat bytes) } }

/-- The same in the boot overlay. -/
def boot (at_ : Addr) (bytes : List Byte) : State :=
  { State.reset with
    pc := at_
    env := { State.reset.env with cfg := withRom (cellsFrom [] at_.toNat bytes) } }

/-- A state under a core configuration. -/
def under (cfg : CoreConfig) (s : State) : State := { s with cfg := cfg }

/-- The default set without the pair of 0x78 and without the prefix. -/
def narrowed : CoreConfig :=
  { CoreConfig.default with implemented := { Implemented.default with
      base := Implemented.default.base &&& ~~~(1#256 <<< 0x78) &&& ~~~(1#256 <<< 0xCB) } }

/-- The start state of 95_test_vectors.md 2.2, bytes at 0x8000. -/
def start22 (bytes : List Byte) : State :=
  { flat 0x8000 bytes [(0xC123, 0x5A), (0x2233, 0x66), (0x4455, 0x77), (0xFF33, 0x88), (0xFF90, 0x99), (0xD000, 0xAA)] with
    a := 0x11, b := 0x22, c := 0x33, d := 0x44, e := 0x55, h := 0xC1, l := 0x23, f := 0xB0 }

/-! ## Well-formedness -/

theorem test_wellFormed_refuses_implemented_base : (Instr.unimplemented 0x00 false).wellFormed = false := by decide
theorem test_wellFormed_refuses_implemented_cb : (Instr.unimplemented 0x46 true).wellFormed = false := by decide
theorem test_wellFormed_accepts_absent : (Instr.unimplemented 0x76 false).wellFormed = true := by decide
theorem test_wellFormed_refuses_outside_the_set : Instr.ld_A_B.wellFormedIn narrowed.implemented = false := by decide
theorem test_wellFormed_refuses_without_prefix : Instr.rl_B.wellFormedIn narrowed.implemented = false := by decide
theorem test_wellFormed_accepts_outside_the_set :
    (Instr.unimplemented 0x78 false).wellFormedIn narrowed.implemented = true := by decide

/-! ## Decoding: words written out from R103 and R110, one of each family and format -/

theorem test_decode_nop : decodeInstr [0b00000000] = .ok (.nop, []) := by decide
theorem test_decode_ld_r_r : decodeInstr [0b01111000] = .ok (.ld_A_B, []) := by decide
theorem test_decode_ld_r_r_order : decodeInstr [0b01000111] = .ok (.ld_B_A, []) := by decide
theorem test_decode_ld_r_n : decodeInstr [0b00100110, 0x7F] = .ok ((.ld_H_n 0x7F), []) := by decide
theorem test_decode_ld_r_atHL : decodeInstr [0b01101110] = .ok (.ld_L_atHL, []) := by decide
theorem test_decode_ld_atHL_r : decodeInstr [0b01110101] = .ok (.ld_atHL_L, []) := by decide
theorem test_decode_ld_atHL_n : decodeInstr [0b00110110, 0x12] = .ok ((.ld_atHL_n 0x12), []) := by decide
theorem test_decode_ld_A_atDE : decodeInstr [0b00011010] = .ok (.ld_A_atDE, []) := by decide
theorem test_decode_ld_atHLdec_A : decodeInstr [0b00110010] = .ok (.ld_atHLdec_A, []) := by decide
theorem test_decode_ld_atC_A : decodeInstr [0b11100010] = .ok (.ld_atC_A, []) := by decide
theorem test_decode_ldh_A_atN : decodeInstr [0b11110000, 0x90] = .ok ((.ldh_A_atN 0x90), []) := by decide
theorem test_decode_ld_atNN_A : decodeInstr [0b11101010, 0x34, 0x12] = .ok ((.ld_atNN_A 0x1234), []) := by decide
theorem test_decode_ld_rr_nn : decodeInstr [0b00110001, 0xFE, 0xFF] = .ok ((.ld_SP_nn 0xFFFE), []) := by decide
theorem test_decode_ld_atNN_SP : decodeInstr [0b00001000, 0x00, 0xC1] = .ok ((.ld_atNN_SP 0xC100), []) := by decide
theorem test_decode_ld_SP_HL : decodeInstr [0b11111001] = .ok (.ld_SP_HL, []) := by decide
theorem test_decode_cp_r : decodeInstr [0b10111010] = .ok (.cp_D, []) := by decide
theorem test_decode_cp_n : decodeInstr [0b11111110, 0x3C] = .ok ((.cp_n 0x3C), []) := by decide
theorem test_decode_inc_r : decodeInstr [0b00011100] = .ok (.inc_E, []) := by decide
theorem test_decode_dec_atHL : decodeInstr [0b00110101] = .ok (.dec_atHL, []) := by decide
theorem test_decode_inc_rr : decodeInstr [0b00010011] = .ok (.inc_DE, []) := by decide
theorem test_decode_dec_rr : decodeInstr [0b00111011] = .ok (.dec_SP, []) := by decide
theorem test_decode_rl_r : decodeInstr [0b11001011, 0b00010111] = .ok (.rl_A, []) := by decide
theorem test_decode_rl_atHL : decodeInstr [0b11001011, 0b00010110] = .ok (.rl_atHL, []) := by decide
theorem test_decode_bit_b_r : decodeInstr [0b11001011, 0b01011101] = .ok (.bit_3_L, []) := by decide
theorem test_decode_bit_b_atHL : decodeInstr [0b11001011, 0b01000110] = .ok (.bit_0_atHL, []) := by decide
theorem test_decode_push_rr : decodeInstr [0b11110101] = .ok (.push_AF, []) := by decide
theorem test_decode_jr_cc : decodeInstr [0b00110000, 0xFD] = .ok ((.jr_NC_e 0xFD), []) := by decide
theorem test_decode_prefix : decodeInstr [0b11001011] = .ok (.prefix_CB, []) := by decide
theorem test_decode_unimplemented_base : decodeInstr [0b01110110] = .ok ((.unimplemented 0x76 false), []) := by decide
theorem test_decode_unimplemented_cb : decodeInstr [0b11001011, 0b11001011] = .ok ((.unimplemented 0xCB true), []) := by decide

/-- The words of `rows` decode to their instructions, and the instructions encode to the words. -/
def rowsAgree (rows : List (List Byte × Instr)) : Bool :=
  rows.all fun r => decide (decodeInstr r.1 = .ok (r.2, [])) && decide (encode r.2 = r.1)

/-! Every row of spec/opcode_table.json that has a handler: its opcode byte as the table gives it, in binary, after the
prefix byte for a CB row, with operand bytes 0x5A or 0x34 0x12. -/

theorem test_rows_00 : rowsAgree [
    ([0b00000000], .nop), ([0b00000001, 0x34, 0x12], .ld_BC_nn 0x1234), ([0b00000010], .ld_atBC_A),
    ([0b00000011], .inc_BC), ([0b00000100], .inc_B), ([0b00000101], .dec_B), ([0b00000110, 0x5A], .ld_B_n 0x5A),
    ([0b00001000, 0x34, 0x12], .ld_atNN_SP 0x1234), ([0b00001010], .ld_A_atBC), ([0b00001011], .dec_BC),
    ([0b00001100], .inc_C), ([0b00001101], .dec_C), ([0b00001110, 0x5A], .ld_C_n 0x5A),
    ([0b00010001, 0x34, 0x12], .ld_DE_nn 0x1234), ([0b00010010], .ld_atDE_A), ([0b00010011], .inc_DE)] = true := by decide

theorem test_rows_01 : rowsAgree [
    ([0b00010100], .inc_D), ([0b00010101], .dec_D), ([0b00010110, 0x5A], .ld_D_n 0x5A), ([0b00011010], .ld_A_atDE),
    ([0b00011011], .dec_DE), ([0b00011100], .inc_E), ([0b00011101], .dec_E), ([0b00011110, 0x5A], .ld_E_n 0x5A),
    ([0b00100000, 0x5A], .jr_NZ_e 0x5A), ([0b00100001, 0x34, 0x12], .ld_HL_nn 0x1234), ([0b00100010], .ld_atHLinc_A),
    ([0b00100011], .inc_HL), ([0b00100100], .inc_H), ([0b00100101], .dec_H), ([0b00100110, 0x5A], .ld_H_n 0x5A),
    ([0b00101000, 0x5A], .jr_Z_e 0x5A)] = true := by decide

theorem test_rows_02 : rowsAgree [
    ([0b00101010], .ld_A_atHLinc), ([0b00101011], .dec_HL), ([0b00101100], .inc_L), ([0b00101101], .dec_L),
    ([0b00101110, 0x5A], .ld_L_n 0x5A), ([0b00110000, 0x5A], .jr_NC_e 0x5A),
    ([0b00110001, 0x34, 0x12], .ld_SP_nn 0x1234), ([0b00110010], .ld_atHLdec_A), ([0b00110011], .inc_SP),
    ([0b00110100], .inc_atHL), ([0b00110101], .dec_atHL), ([0b00110110, 0x5A], .ld_atHL_n 0x5A),
    ([0b00111000, 0x5A], .jr_C_e 0x5A), ([0b00111010], .ld_A_atHLdec), ([0b00111011], .dec_SP), ([0b00111100], .inc_A)] = true := by decide

theorem test_rows_03 : rowsAgree [
    ([0b00111101], .dec_A), ([0b00111110, 0x5A], .ld_A_n 0x5A), ([0b01000000], .ld_B_B), ([0b01000001], .ld_B_C),
    ([0b01000010], .ld_B_D), ([0b01000011], .ld_B_E), ([0b01000100], .ld_B_H), ([0b01000101], .ld_B_L),
    ([0b01000110], .ld_B_atHL), ([0b01000111], .ld_B_A), ([0b01001000], .ld_C_B), ([0b01001001], .ld_C_C),
    ([0b01001010], .ld_C_D), ([0b01001011], .ld_C_E), ([0b01001100], .ld_C_H), ([0b01001101], .ld_C_L)] = true := by decide

theorem test_rows_04 : rowsAgree [
    ([0b01001110], .ld_C_atHL), ([0b01001111], .ld_C_A), ([0b01010000], .ld_D_B), ([0b01010001], .ld_D_C),
    ([0b01010010], .ld_D_D), ([0b01010011], .ld_D_E), ([0b01010100], .ld_D_H), ([0b01010101], .ld_D_L),
    ([0b01010110], .ld_D_atHL), ([0b01010111], .ld_D_A), ([0b01011000], .ld_E_B), ([0b01011001], .ld_E_C),
    ([0b01011010], .ld_E_D), ([0b01011011], .ld_E_E), ([0b01011100], .ld_E_H), ([0b01011101], .ld_E_L)] = true := by decide

theorem test_rows_05 : rowsAgree [
    ([0b01011110], .ld_E_atHL), ([0b01011111], .ld_E_A), ([0b01100000], .ld_H_B), ([0b01100001], .ld_H_C),
    ([0b01100010], .ld_H_D), ([0b01100011], .ld_H_E), ([0b01100100], .ld_H_H), ([0b01100101], .ld_H_L),
    ([0b01100110], .ld_H_atHL), ([0b01100111], .ld_H_A), ([0b01101000], .ld_L_B), ([0b01101001], .ld_L_C),
    ([0b01101010], .ld_L_D), ([0b01101011], .ld_L_E), ([0b01101100], .ld_L_H), ([0b01101101], .ld_L_L)] = true := by decide

theorem test_rows_06 : rowsAgree [
    ([0b01101110], .ld_L_atHL), ([0b01101111], .ld_L_A), ([0b01110000], .ld_atHL_B), ([0b01110001], .ld_atHL_C),
    ([0b01110010], .ld_atHL_D), ([0b01110011], .ld_atHL_E), ([0b01110100], .ld_atHL_H), ([0b01110101], .ld_atHL_L),
    ([0b01110111], .ld_atHL_A), ([0b01111000], .ld_A_B), ([0b01111001], .ld_A_C), ([0b01111010], .ld_A_D),
    ([0b01111011], .ld_A_E), ([0b01111100], .ld_A_H), ([0b01111101], .ld_A_L), ([0b01111110], .ld_A_atHL)] = true := by decide

theorem test_rows_07 : rowsAgree [
    ([0b01111111], .ld_A_A), ([0b10111000], .cp_B), ([0b10111001], .cp_C), ([0b10111010], .cp_D),
    ([0b10111011], .cp_E), ([0b10111100], .cp_H), ([0b10111101], .cp_L), ([0b10111110], .cp_atHL),
    ([0b10111111], .cp_A), ([0b11000101], .push_BC), ([0b11001011], .prefix_CB), ([0b11010101], .push_DE),
    ([0b11100000, 0x5A], .ldh_atN_A 0x5A), ([0b11100010], .ld_atC_A), ([0b11100101], .push_HL),
    ([0b11101010, 0x34, 0x12], .ld_atNN_A 0x1234)] = true := by decide

theorem test_rows_08 : rowsAgree [
    ([0b11110000, 0x5A], .ldh_A_atN 0x5A), ([0b11110010], .ld_A_atC), ([0b11110101], .push_AF),
    ([0b11111001], .ld_SP_HL), ([0b11111010, 0x34, 0x12], .ld_A_atNN 0x1234), ([0b11111110, 0x5A], .cp_n 0x5A),
    ([0xCB, 0b00010000], .rl_B), ([0xCB, 0b00010001], .rl_C), ([0xCB, 0b00010010], .rl_D),
    ([0xCB, 0b00010011], .rl_E), ([0xCB, 0b00010100], .rl_H), ([0xCB, 0b00010101], .rl_L),
    ([0xCB, 0b00010110], .rl_atHL), ([0xCB, 0b00010111], .rl_A), ([0xCB, 0b01000000], .bit_0_B),
    ([0xCB, 0b01000001], .bit_0_C)] = true := by decide

theorem test_rows_09 : rowsAgree [
    ([0xCB, 0b01000010], .bit_0_D), ([0xCB, 0b01000011], .bit_0_E), ([0xCB, 0b01000100], .bit_0_H),
    ([0xCB, 0b01000101], .bit_0_L), ([0xCB, 0b01000110], .bit_0_atHL), ([0xCB, 0b01000111], .bit_0_A),
    ([0xCB, 0b01001000], .bit_1_B), ([0xCB, 0b01001001], .bit_1_C), ([0xCB, 0b01001010], .bit_1_D),
    ([0xCB, 0b01001011], .bit_1_E), ([0xCB, 0b01001100], .bit_1_H), ([0xCB, 0b01001101], .bit_1_L),
    ([0xCB, 0b01001110], .bit_1_atHL), ([0xCB, 0b01001111], .bit_1_A), ([0xCB, 0b01010000], .bit_2_B),
    ([0xCB, 0b01010001], .bit_2_C)] = true := by decide

theorem test_rows_10 : rowsAgree [
    ([0xCB, 0b01010010], .bit_2_D), ([0xCB, 0b01010011], .bit_2_E), ([0xCB, 0b01010100], .bit_2_H),
    ([0xCB, 0b01010101], .bit_2_L), ([0xCB, 0b01010110], .bit_2_atHL), ([0xCB, 0b01010111], .bit_2_A),
    ([0xCB, 0b01011000], .bit_3_B), ([0xCB, 0b01011001], .bit_3_C), ([0xCB, 0b01011010], .bit_3_D),
    ([0xCB, 0b01011011], .bit_3_E), ([0xCB, 0b01011100], .bit_3_H), ([0xCB, 0b01011101], .bit_3_L),
    ([0xCB, 0b01011110], .bit_3_atHL), ([0xCB, 0b01011111], .bit_3_A), ([0xCB, 0b01100000], .bit_4_B),
    ([0xCB, 0b01100001], .bit_4_C)] = true := by decide

theorem test_rows_11 : rowsAgree [
    ([0xCB, 0b01100010], .bit_4_D), ([0xCB, 0b01100011], .bit_4_E), ([0xCB, 0b01100100], .bit_4_H),
    ([0xCB, 0b01100101], .bit_4_L), ([0xCB, 0b01100110], .bit_4_atHL), ([0xCB, 0b01100111], .bit_4_A),
    ([0xCB, 0b01101000], .bit_5_B), ([0xCB, 0b01101001], .bit_5_C), ([0xCB, 0b01101010], .bit_5_D),
    ([0xCB, 0b01101011], .bit_5_E), ([0xCB, 0b01101100], .bit_5_H), ([0xCB, 0b01101101], .bit_5_L),
    ([0xCB, 0b01101110], .bit_5_atHL), ([0xCB, 0b01101111], .bit_5_A), ([0xCB, 0b01110000], .bit_6_B),
    ([0xCB, 0b01110001], .bit_6_C)] = true := by decide

theorem test_rows_12 : rowsAgree [
    ([0xCB, 0b01110010], .bit_6_D), ([0xCB, 0b01110011], .bit_6_E), ([0xCB, 0b01110100], .bit_6_H),
    ([0xCB, 0b01110101], .bit_6_L), ([0xCB, 0b01110110], .bit_6_atHL), ([0xCB, 0b01110111], .bit_6_A),
    ([0xCB, 0b01111000], .bit_7_B), ([0xCB, 0b01111001], .bit_7_C), ([0xCB, 0b01111010], .bit_7_D),
    ([0xCB, 0b01111011], .bit_7_E), ([0xCB, 0b01111100], .bit_7_H), ([0xCB, 0b01111101], .bit_7_L),
    ([0xCB, 0b01111110], .bit_7_atHL), ([0xCB, 0b01111111], .bit_7_A)] = true := by decide


theorem test_decode_missing_operand : decodeInstr [0x01, 0x34] = .error .operandMissing := by decide
theorem test_tableWord_ld_BC_nn : decodeTableWord 24 0x123401 = some (.ld_BC_nn 0x1234) := by decide
theorem test_tableWord_bit : decodeTableWord 16 0x7CCB = some .bit_7_H := by decide
theorem test_tableWord_prefix : decodeTableWord 8 0xCB = some .prefix_CB := by decide

/-! ## One step of each family (95_test_vectors.md part 2) -/

/-- 2.1: NOP at 0xFFFF. -/
theorem test_nop : (nextOf (step (flat 0xFFFF [0x00] []))).map (fun t => (t.pc, t.bus)) =
    some (0x0000, [.rd 0xFFFF 0x00]) := by decide

/-- 2.1: `D3` at 0xC005. -/
theorem test_unimplemented_base : (faultOf (step (flat 0xC005 [0xD3] []))).map (fun t => (t.pc, t.fault, t.phase, t.bus)) =
    some (0xC006, some ⟨.unimplementedOpcode, 0xD3, false, 0xC005⟩, .faulted, [.rd 0xC005 0xD3]) := by decide

/-- 2.1: `CB 37`. -/
theorem test_unimplemented_cb : (faultOf (step (flat 0x8000 [0xCB, 0x37] []))).map (fun t => (t.pc, t.fault, t.bus)) =
    some (0x8002, some ⟨.unimplementedOpcode, 0x37, true, 0x8001⟩, [.rd 0x8000 0xCB, .rd 0x8001 0x37]) := by decide

/-- 2.1: PC = 0x4000 under `RefBus`. -/
theorem test_unmapped_fetch : (faultOf (step (ref 0x4000 [] []))).map (fun t => (t.pc, t.fault)) =
    some (0x4001, some ⟨.unimplementedOpcode, 0xFF, false, 0x4000⟩) := by decide

/-- 2.1: `CB` at 0xFFFF, `7F` at 0x0000, A = 0x80. -/
theorem test_prefix_wraps : (nextOf (step { flat 0xFFFF [0xCB, 0x7F] [] with a := 0x80, f := 0x40 })).map (fun t => (t.f, t.pc, t.bus)) =
    some (0x20, 0x0001, [.rd 0xFFFF 0xCB, .rd 0x0000 0x7F]) := by decide

/-- 2.2: `78`. -/
theorem test_ld_A_B : (nextOf (step (start22 [0x78]))).map (fun t => (t.a, t.b, t.f, t.pc)) =
    some (0x22, 0x22, 0xB0, 0x8001) := by decide

/-- 2.2: `6C`. -/
theorem test_ld_L_H : (nextOf (step (start22 [0x6C]))).map (fun t => (t.h, t.l)) =
    some (0xC1, 0xC1) := by decide

/-- 2.2: `3E FF`. -/
theorem test_ld_A_n : (nextOf (step (start22 [0x3E, 0xFF]))).map (fun t => (t.a, t.pc)) =
    some (0xFF, 0x8002) := by decide

/-- 2.2: `66`, the destination a half of the pointer. -/
theorem test_ld_H_atHL : (nextOf (step (start22 [0x66]))).map (fun t => (t.h, t.l, t.bus)) =
    some (0x5A, 0x23, [.rd 0x8000 0x66, .rd 0xC123 0x5A]) := by decide

/-- 2.2: `75`. -/
theorem test_ld_atHL_L : (nextOf (step (start22 [0x75]))).map (fun t => (t.env.peek 0xC123, t.bus)) =
    some (0x23, [.rd 0x8000 0x75, .wr 0xC123 0x23]) := by decide

/-- 2.2: `36 7F`. -/
theorem test_ld_atHL_n : (nextOf (step (start22 [0x36, 0x7F]))).map (fun t => (t.env.peek 0xC123, t.pc)) =
    some (0x7F, 0x8002) := by decide

/-- 2.2: `0A`. -/
theorem test_ld_A_atBC : (nextOf (step (start22 [0x0A]))).map (fun t => (t.a)) =
    some (0x66) := by decide

/-- 2.2: `1A`. -/
theorem test_ld_A_atDE : (nextOf (step (start22 [0x1A]))).map (fun t => (t.a)) =
    some (0x77) := by decide

/-- 2.2: `02`. -/
theorem test_ld_atBC_A : (nextOf (step (start22 [0x02]))).map (fun t => (t.env.peek 0x2233)) =
    some (0x11) := by decide

/-- 2.2: `12`. -/
theorem test_ld_atDE_A : (nextOf (step (start22 [0x12]))).map (fun t => (t.env.peek 0x4455)) =
    some (0x11) := by decide

/-- 2.2: `22`. -/
theorem test_ld_atHLinc_A : (nextOf (step (start22 [0x22]))).map (fun t => (t.env.peek 0xC123, t.reg16 .hl)) =
    some (0x11, 0xC124) := by decide

/-- 2.2: `32`. -/
theorem test_ld_atHLdec_A : (nextOf (step (start22 [0x32]))).map (fun t => (t.env.peek 0xC123, t.reg16 .hl)) =
    some (0x11, 0xC122) := by decide

/-- 2.2: `2A`. -/
theorem test_ld_A_atHLinc : (nextOf (step (start22 [0x2A]))).map (fun t => (t.a, t.reg16 .hl)) =
    some (0x5A, 0xC124) := by decide

/-- 2.2: `3A`. -/
theorem test_ld_A_atHLdec : (nextOf (step (start22 [0x3A]))).map (fun t => (t.a, t.reg16 .hl)) =
    some (0x5A, 0xC122) := by decide

/-- 2.2: `E2`. -/
theorem test_ld_atC_A : (nextOf (step (start22 [0xE2]))).map (fun t => (t.env.peek 0xFF33, t.pc)) =
    some (0x11, 0x8001) := by decide

/-- 2.2: `F2`. -/
theorem test_ld_A_atC : (nextOf (step (start22 [0xF2]))).map (fun t => (t.a)) =
    some (0x88) := by decide

/-- 2.2: `E0 90`. -/
theorem test_ldh_atN_A : (nextOf (step (start22 [0xE0, 0x90]))).map (fun t => (t.env.peek 0xFF90, t.pc)) =
    some (0x11, 0x8002) := by decide

/-- 2.2: `F0 90`. -/
theorem test_ldh_A_atN : (nextOf (step (start22 [0xF0, 0x90]))).map (fun t => (t.a, t.bus)) =
    some (0x99, [.rd 0x8000 0xF0, .rd 0x8001 0x90, .rd 0xFF90 0x99]) := by decide

/-- 2.2: `EA 00 D0`. -/
theorem test_ld_atNN_A : (nextOf (step (start22 [0xEA, 0x00, 0xD0]))).map (fun t => (t.env.peek 0xD000, t.pc)) =
    some (0x11, 0x8003) := by decide

/-- 2.2: `FA 00 D0`. -/
theorem test_ld_A_atNN : (nextOf (step (start22 [0xFA, 0x00, 0xD0]))).map (fun t => (t.a, t.bus)) =
    some (0xAA, [.rd 0x8000 0xFA, .rd 0x8001 0x00, .rd 0x8002 0xD0, .rd 0xD000 0xAA]) := by decide

/-- 2.2: `22` with HL = 0xFFFF. -/
theorem test_ld_atHLinc_wraps : (nextOf (step { flat 0x8000 [0x22] [] with a := 0x77, h := 0xFF, l := 0xFF })).map (fun t => (t.env.peek 0xFFFF, t.reg16 .hl)) =
    some (0x77, 0x0000) := by decide

/-- 2.2: `EA 00 80` under `RefBus`: the write is dropped. -/
theorem test_unmapped_store_dropped :
    (nextOf (step { ref 0xC000 [0xEA, 0x00, 0x80] [] with a := 0x12 })).map (fun t => (t.env.peek 0x8000, t.env.mem)) =
    some (0xFF, (ref 0xC000 [0xEA, 0x00, 0x80] []).env.mem) := by decide

/-- 2.3 and S8: `01 34 12`. -/
theorem test_ld_BC_nn : (nextOf (step (flat 0x8000 [0x01, 0x34, 0x12] []))).map (fun t => (t.b, t.c, t.pc)) =
    some (0x12, 0x34, 0x8003) := by decide

/-- 2.3: `21 CD AB` at 0xFFFE. -/
theorem test_ld_HL_nn_wraps : (nextOf (step (flat 0xFFFE [0x21, 0xCD, 0xAB] []))).map (fun t => (t.reg16 .hl, t.pc)) =
    some (0xABCD, 0x0001) := by decide

/-- 2.3: `08 FF FF`. -/
theorem test_ld_atNN_SP_wraps : (nextOf (step { flat 0x8000 [0x08, 0xFF, 0xFF] [] with sp := 0x1234 })).map (fun t => (t.env.peek 0xFFFF, t.env.peek 0x0000)) =
    some (0x34, 0x12) := by decide

/-- 2.3: `F9`. -/
theorem test_ld_SP_HL : (nextOf (step { flat 0x8000 [0xF9] [] with h := 0xD0 })).map (fun t => (t.sp, t.h, t.pc)) =
    some (0xD000, 0xD0, 0x8001) := by decide

/-- 2.4: A = 0x3C, v = 0x40. -/
theorem test_cp_B : (nextOf (step { flat 0x8000 [0xB8] [] with a := 0x3C, b := 0x40 })).map (fun t => (t.f, t.a)) =
    some (0x50, 0x3C) := by decide

/-- 2.4: A = 0x3C, v = 0x2F. -/
theorem test_cp_atHL : (nextOf (step { flat 0x8000 [0xBE] [(0xC000, 0x2F)] with a := 0x3C, h := 0xC0 })).map (fun t => (t.f, t.bus)) =
    some (0x60, [.rd 0x8000 0xBE, .rd 0xC000 0x2F]) := by decide

/-- 2.4: A = 0x00, v = 0x01. -/
theorem test_cp_n : (nextOf (step { flat 0x8000 [0xFE, 0x01] [] with a := 0x00 })).map (fun t => (t.f, t.pc)) =
    some (0x70, 0x8002) := by decide

/-- 2.4: `BF` always gives F = 0xC0. -/
theorem test_cp_A : (nextOf (step { flat 0x8000 [0xBF] [] with a := 0x5A, f := 0xF0 })).map (fun t => (t.f)) =
    some (0xC0) := by decide

/-- 2.5: INC8(0xFF), Cf = 1. -/
theorem test_inc_A : (nextOf (step { flat 0x8000 [0x3C] [] with a := 0xFF, f := 0x10 })).map (fun t => (t.a, t.f)) =
    some (0x00, 0xB0) := by decide

/-- 2.5: DEC8(0x00), Cf = 1. -/
theorem test_dec_B : (nextOf (step { flat 0x8000 [0x05] [] with b := 0x00, f := 0x10 })).map (fun t => (t.b, t.f)) =
    some (0xFF, 0x70) := by decide

/-- 2.5: `34`, cell 0xFF. -/
theorem test_inc_atHL : (nextOf (step { flat 0x8000 [0x34] [(0xC000, 0xFF)] with h := 0xC0 })).map (fun t => (t.env.peek 0xC000, t.f, t.bus)) =
    some (0x00, 0xA0, [.rd 0x8000 0x34, .rd 0xC000 0xFF, .wr 0xC000 0x00]) := by decide

/-- 2.5: `35`, cell 0x00. -/
theorem test_dec_atHL : (nextOf (step { flat 0x8000 [0x35] [(0xC000, 0x00)] with h := 0xC0 })).map (fun t => (t.env.peek 0xC000, t.f)) =
    some (0xFF, 0x60) := by decide

/-- 2.5: `34` with HL = 0x8000 under `RefBus`. -/
theorem test_inc_atHL_unmapped : (nextOf (step { ref 0xC000 [0x34] [] with h := 0x80 })).map (fun t => (t.f, t.bus)) =
    some (0xA0, [.rd 0xC000 0x34, .rd 0x8000 0xFF, .wr 0x8000 0x00]) := by decide

/-- 2.6: BC = 0x00FF. -/
theorem test_inc_BC : (nextOf (step { flat 0x8000 [0x03] [] with b := 0x00, c := 0xFF, f := 0x90 })).map (fun t => (t.reg16 .bc, t.f)) =
    some (0x0100, 0x90) := by decide

/-- 2.6: SP = 0x0000. -/
theorem test_dec_SP : (nextOf (step { flat 0x8000 [0x3B] [] with f := 0x90 })).map (fun t => (t.sp, t.f)) =
    some (0xFFFF, 0x90) := by decide

/-- 2.7: v = 0xCE, Cf = 0. -/
theorem test_rl_A : (nextOf (step { flat 0x8000 [0xCB, 0x17] [] with a := 0xCE, f := 0x60 })).map (fun t => (t.a, t.f)) =
    some (0x9C, 0x10) := by decide

/-- 2.7: v = 0x80, Cf = 0. -/
theorem test_rl_B : (nextOf (step { flat 0x8000 [0xCB, 0x10] [] with b := 0x80, f := 0x60 })).map (fun t => (t.b, t.f)) =
    some (0x00, 0x90) := by decide

/-- 2.7: `CB 16`, cell 0x80, Cf = 1. -/
theorem test_rl_atHL : (nextOf (step { flat 0x8000 [0xCB, 0x16] [(0xC000, 0x80)] with h := 0xC0, f := 0x70 })).map (fun t => (t.env.peek 0xC000, t.f, t.bus)) =
    some (0x01, 0x10, [.rd 0x8000 0xCB, .rd 0x8001 0x16, .rd 0xC000 0x80, .wr 0xC000 0x01]) := by decide

/-- 2.8: b = 3, v = 0xF7, Cf = 1. -/
theorem test_bit_3_A : (nextOf (step { flat 0x8000 [0xCB, 0x5F] [] with a := 0xF7, f := 0x50 })).map (fun t => (t.f, t.a)) =
    some (0xB0, 0xF7) := by decide

/-- 2.8: `CB 7C`, H = 0x80. -/
theorem test_bit_7_H : (nextOf (step { flat 0x8000 [0xCB, 0x7C] [] with h := 0x80, f := 0x40 })).map (fun t => (t.f)) =
    some (0x20) := by decide

/-- 2.8: `CB 46`, cell 0xFE. -/
theorem test_bit_0_atHL : (nextOf (step { flat 0x8000 [0xCB, 0x46] [(0xC000, 0xFE)] with h := 0xC0 })).map (fun t => (t.f, t.bus)) =
    some (0xA0, [.rd 0x8000 0xCB, .rd 0x8001 0x46, .rd 0xC000 0xFE]) := by decide

/-- 2.9: PUSH HL, SP = 0x0001. -/
theorem test_push_HL_wraps : (nextOf (step { flat 0x8000 [0xE5] [] with h := 0xBE, l := 0xEF, sp := 0x0001 })).map (fun t => (t.sp, t.bus)) =
    some (0xFFFF, [.rd 0x8000 0xE5, .wr 0x0000 0xBE, .wr 0xFFFF 0xEF]) := by decide

/-- 2.9: PUSH AF. -/
theorem test_push_AF : (nextOf (step { flat 0x8000 [0xF5] [] with a := 0x5A, f := 0xC0, sp := 0xFFFC })).map (fun t => (t.sp, t.env.peek 0xFFFB, t.env.peek 0xFFFA, t.f)) =
    some (0xFFFA, 0x5A, 0xC0, 0xC0) := by decide

/-- 2.10: e = 0x80, taken. -/
theorem test_jr_NZ_taken : (nextOf (step (flat 0xC000 [0x20, 0x80] []))).map (fun t => (t.pc, t.bus)) =
    some (0xBF82, [.rd 0xC000 0x20, .rd 0xC001 0x80]) := by decide

/-- 2.10: at 0xFFFD, e = 0x7F, not taken. -/
theorem test_jr_NZ_not_taken : (nextOf (step { flat 0xFFFD [0x20, 0x7F] [] with f := 0x80 })).map (fun t => (t.pc)) =
    some (0xFFFF) := by decide

/-- 2.10: 0x30, Cf = 0. -/
theorem test_jr_NC_taken : (nextOf (step (flat 0xC000 [0x30, 0x05] []))).map (fun t => (t.pc)) =
    some (0xC007) := by decide

/-- 2.10: 0x38, Cf = 0. -/
theorem test_jr_C_not_taken : (nextOf (step { flat 0xC000 [0x38, 0x05] [] with f := 0x80 })).map (fun t => (t.pc)) =
    some (0xC002) := by decide

/-- 2.10: 0x28, Z = 1. -/
theorem test_jr_Z_taken : (nextOf (step { flat 0xC000 [0x28, 0x05] [] with f := 0x80 })).map (fun t => (t.pc)) =
    some (0xC007) := by decide

/-- R70: with `WramMirror`, 0xE000 and 0xFDFF alias 0xC000 and 0xDDFF. -/
theorem test_wramMirror :
    (({ (ref 0xC000 [0x78] [(0xDDFF, 0x5A)]).env with cfg := { Config.default with wramMirror := true } } : Env).peek 0xE000,
      ({ (ref 0xC000 [0x78] [(0xDDFF, 0x5A)]).env with cfg := { Config.default with wramMirror := true } } : Env).peek 0xFDFF) =
    (0x78, 0x5A) := by decide

/-! ## Ticks, the boot overlay, the host's placing -/

/-- S8: `01 34 12` takes exactly three M-cycles: BC is not written after two. -/
theorem test_ticks_ld_BC_nn :
    ((ticks 3 (flat 0x8000 [0x01, 0x34, 0x12] [])).reg16 .bc, (ticks 2 (flat 0x8000 [0x01, 0x34, 0x12] [])).phase) =
    (0x1234, .execute) := by decide

/-- R160, R162, R171: a 16-bit write operator writes the value it is given, a pair at once, memory low byte first. -/
theorem test_write16Tick :
    (write16Tick (.reg16 .sp) 0xBEEF 0 (flat 0x8000 [] [])).2.sp = 0xBEEF ∧
      (write16Ticks .direct16 0xBEEF 4 (flat 0x8000 [0x00, 0xD0] [])).bus.drop 2 = [.wr 0xD000 0xEF, .wr 0xD001 0xBE] := by
  decide

/-- S7: with Z set `JR NZ` takes no jump tick; with Z clear it takes one. -/
theorem test_ticks_jr :
    ((ticks 2 { flat 0xC000 [0x20, 0x05] [] with f := 0x80 }).phase, (ticks 2 (flat 0xC000 [0x20, 0x05] [])).phase,
      (ticks 3 (flat 0xC000 [0x20, 0x05] [])).pc) = (.fetch, .execute, 0xC007) := by decide

/-- P7: LDH (0x50),A with A = 0x01 switches the boot overlay off, and the next fetch reads 0xFF. -/
theorem test_boot_off :
    (nextOf (step { boot 0x0002 [0xE0, 0x50, 0x00] with a := 0x01 })).map
      (fun t => (t.env.bootEn, t.env.peek 0x0004, t.bus)) =
    some (false, 0xFF, [.rd 0x0002 0xE0, .rd 0x0003 0x50, .wr 0xFF50 0x01]) := by decide

/-- The table word of `LD BC,nn`, placed at reset, is what the first step runs. -/
theorem test_withFetchWord :
    (nextOf (step (State.reset.withFetchWord 24 0x123401))).map (fun t => (t.b, t.c, t.pc)) = some (0x12, 0x34, 0x0003) := by
  decide

/-- The same where nothing is supplied, under an environment whose cells are unknown, and in working RAM. -/
theorem test_withFetchWord_places :
    [State.reset, { State.reset with env := { State.reset.env with cfg := { Config.default with bus := .external } } },
      { State.reset with pc := 0xFFFF }].map
      (fun s => (nextOf (step (s.withFetchWord 16 0x7F06))).map (fun t => (t.b, t.pc))) =
    [some (0x7F, 0x0002), some (0x7F, 0x0002), some (0x7F, 0xC002)] := by decide

/-! ## The parameters of R6 -/

/-- U8: a `RefBus` without `BootRom` is refused. -/
theorem test_bootRom_missing : step State.reset = .refused .bootRomMissing := rfl

/-- R70: the overlay reads `BootRom`, and 0xFF once the latch is clear. -/
theorem test_bootRom_reads : ((boot 0x0000 [0x12, 0x34]).env.peek 0x0001,
    ({ (boot 0x0000 [0x12, 0x34]).env with bootEn := false } : Env).peek 0x0001) = (0x34, 0xFF) := by decide

/-- R113, R142: a pair outside the configured `Implemented` faults, the prefix included. -/
theorem test_implemented_narrowed :
    [[0x78], [0xCB, 0x10]].map (fun b => (faultOf (step (under narrowed (flat 0x8000 b [])))).map (fun t => t.fault)) =
    [some (some ⟨.unimplementedOpcode, 0x78, false, 0x8000⟩), some (some ⟨.unimplementedOpcode, 0xCB, false, 0x8000⟩)] := by
  decide

/-- R61, U10: an external environment gets each read once, and its answer is what is latched. -/
theorem test_external_read (s : State) (h : s.env.cfg.bus = .external) :
    (fetch s).opcode = (Config.externalRead s.env.ext s.pc).1 ∧
    (fetch s).env = { s.env with ext := (Config.externalRead s.env.ext s.pc).2 } := by
  simp [fetch, memRead, Env.read, Env.peek, Env.afterRead, h]

/-- R147, D6 (b): INC (HL) has its flags after the call of the read; R368's schedule writes them in the call of the write. -/
theorem test_ticks_inc_atHL :
    [CoreConfig.default, { CoreConfig.default with modifyCall := .write }].map
      (fun c => [2, 3].map (fun n =>
        let t := ticks n (under c { flat 0x8000 [0x34] [(0xC000, 0xFF)] with h := 0xC0 })
        (t.f, t.env.peek 0xC000, t.phase))) =
    [[(0xA0, 0xFF, .execute), (0xA0, 0x00, .fetch)], [(0x00, 0xFF, .execute), (0xA0, 0x00, .fetch)]] := by decide

/-! ## Witnesses: a state and operands that meet the hypotheses of each statement -/

theorem witness_DecodeEncodeRoundTrip : (Instr.jr_NZ_e 0xFF).wellFormedIn narrowed.implemented = true ∧
    Instr.jr_NZ_e 0xFF ≠ .prefix_CB := by decide

theorem witness_DecodedBytesEncodeBack : decodeInstr [0x01, 0xFF, 0xFF, 0x00] = .ok (.ld_BC_nn 0xFFFF, [0x00]) := by decide

theorem witness_StepRunsDecoded :
    (flat 0xFFFE [0x21, 0xCD, 0xAB] []).phase = .fetch ∧ (flat 0xFFFE [0x21, 0xCD, 0xAB] []).env.cfg.accepted = true ∧
    decodeInstrIn CoreConfig.default.implemented (bytesAt (flat 0xFFFE [0x21, 0xCD, 0xAB] []).env 0xFFFE 3) =
      .ok (.ld_HL_nn 0xABCD, []) := by decide

theorem witness_PrefixCbSelectsSecondTable_runs :
    (flat 0xFFFF [0xCB, 0x7F] []).phase = .fetch ∧ (flat 0xFFFF [0xCB, 0x7F] []).env.cfg.accepted = true ∧
    hasHandler .default 0xCB false = true ∧ bytesAt (flat 0xFFFF [0xCB, 0x7F] []).env 0xFFFF 2 = [0xCB, 0x7F] ∧
    hasHandler .default 0x7F true = true := by decide

theorem witness_PrefixCbSelectsSecondTable_faults :
    bytesAt (flat 0x8000 [0xCB, 0xCB] []).env 0x8000 2 = [0xCB, 0xCB] ∧ hasHandler .default 0xCB true = false := by decide

theorem witness_FaultEntryIsPrecise_base :
    (flat 0xFFFF [0xD3] []).phase = .fetch ∧ (flat 0xFFFF [0xD3] []).env.cfg.accepted = true ∧
    hasHandler .default 0xD3 false = false ∧ bytesAt (flat 0xFFFF [0xD3] []).env 0xFFFF 1 = [0xD3] := by decide

theorem witness_FaultEntryIsPrecise_cb :
    (flat 0xFFFF [0xCB, 0x37] []).phase = .fetch ∧ (flat 0xFFFF [0xCB, 0x37] []).env.cfg.accepted = true ∧
    hasHandler .default 0x37 true = false ∧ hasHandler .default 0xCB false = true ∧
    bytesAt (flat 0xFFFF [0xCB, 0x37] []).env 0xFFFF 2 = [0xCB, 0x37] := by decide

theorem witness_FaultedIsTerminal :
    (faultOf (step (flat 0x8000 [0x76] []))).map (fun t => t.phase) = some .faulted := by decide

theorem witness_StepCompletesIffImplemented_safe : (flat 0x8000 [0xCB, 0x10] []).phase = .fetch ∧
    (flat 0x8000 [0xCB, 0x10] []).env.cfg.accepted = true ∧ bytesAt (flat 0x8000 [0xCB, 0x10] []).env 0x8000 2 = [0xCB, 0x10] ∧
    (flat 0x8000 [0xCB, 0x10] []).Safe := ⟨rfl, by decide, by decide, _, rfl⟩

theorem witness_StepCompletesIffImplemented_unsafe : (flat 0x8000 [0x18] []).phase = .fetch ∧
    ¬(flat 0x8000 [0x18] []).Safe := by
  refine ⟨rfl, ?_⟩
  rintro ⟨t, h⟩
  have e : (nextOf (step (flat 0x8000 [0x18] []))).isNone = true := by decide
  rw [h] at e
  exact Bool.noConfusion e

theorem witness_RefBusNeedsBootRom : State.reset.phase ≠ .faulted ∧ State.reset.env.cfg.bus = .ref ∧
    State.reset.env.cfg.bootRom = none ∧ step State.reset = .refused .bootRomMissing := ⟨by decide, rfl, rfl, rfl⟩

theorem witness_NoInstructionWritesImmediate : (flat 0x8000 [0x3E, 0x12] []).phase = .fetch ∧
    ∃ t, step (flat 0x8000 [0x3E, 0x12] []) = .next t := ⟨rfl, _, rfl⟩

theorem witness_StepEndsAtBoundary : ∃ s t, s.phase = .execute ∧ step s = .next t :=
  ⟨ticks 1 (flat 0x8000 [0x01, 0x34, 0x12] []), _, by decide, rfl⟩

theorem witness_RefBusReads :
    State.reset.env.cfg.bus = .ref ∧ (0x0000#16).toNat ≤ 0x00FF ∧ (0x00FF#16).toNat ≤ 0x00FF ∧
    (0xC000 ≤ (0xC000#16).toNat ∧ (0xFDFF#16).toNat ≤ 0xFDFF) ∧ (0xFF80 ≤ (0xFF80#16).toNat ∧ (0xFFFE#16).toNat ≤ 0xFFFE) ∧
    (boot 0x0000 [0x12]).env.cfg.bootRom ≠ none ∧ (boot 0x0000 [0x12]).env.bootEn = true ∧
    (boot 0x0000 [0x12]).env.peek 0x0000 = 0x12 ∧ (boot 0x00FF [0x34]).env.peek 0x00FF = 0x34 ∧
    ({ State.reset.env with bootEn := false } : Env).peek 0x00FF = 0xFF ∧
    State.reset.env.peek 0x0100 = 0xFF ∧ State.reset.env.peek 0xC000 = 0x00 ∧ State.reset.env.peek 0xFDFF = 0x00 ∧
    State.reset.env.peek 0xFE00 = 0xFF ∧ State.reset.env.peek 0xFF7F = 0xFF ∧ State.reset.env.peek 0xFF80 = 0x00 ∧
    State.reset.env.peek 0xFFFE = 0x00 ∧ State.reset.env.peek 0xFFFF = 0xFF := by decide

/-- The ends of the unmapped ranges, and a fetch there. -/
theorem witness_UnmappedAddresses :
    (ref 0xC000 [] []).env.cfg.bus = .ref ∧ (ref 0xC000 [] []).env.cfg.bootRom ≠ none ∧
    ([0x0100#16, 0xBFFF#16, 0xFE00#16, 0xFF4F#16, 0xFF51#16, 0xFF7F#16, 0xFFFF#16].all fun a =>
      decide (0x0100 ≤ a.toNat ∧ a.toNat ≤ 0xBFFF ∨ 0xFE00 ≤ a.toNat ∧ a.toNat ≤ 0xFF4F ∨
        0xFF51 ≤ a.toNat ∧ a.toNat ≤ 0xFF7F ∨ a.toNat = 0xFFFF) && decide ((ref 0xC000 [] []).env.peek a = 0xFF) &&
      decide ((ref 0xC000 [] []).env.write a 0x12 = (ref 0xC000 [] []).env) &&
      ((faultOf (step (ref a [] []))).map (fun t => t.fault) ==
        some (some ⟨.unimplementedOpcode, 0xFF, false, a⟩))) = true := by decide

theorem witness_BootLatchAndOverlay_write :
    State.reset.env.cfg.bus = .ref ∧ (0x00FF#16).toNat ≤ 0x00FF ∧
    State.reset.env.cfg.bootDisableOn.getLsbD (0x01#8).toNat = true ∧
    ({ Config.default with bootDisableOn := 0x2#256 } : Config).bootDisableOn.getLsbD (0x00#8).toNat = false := by decide

theorem witness_BootLatchAndOverlay_clears : ∃ s t, s.phase = .fetch ∧ step s = .next t ∧ s.env.bootEn = true ∧
    t.env.bootEn = false :=
  ⟨{ boot 0x0002 [0xE0, 0x50] with a := 0x01 }, _, rfl, rfl, rfl, by decide⟩

theorem witness_BootLatchAndOverlay_stays : ∃ s t, s.phase = .fetch ∧ step s = .next t ∧ t.env.bootEn = true :=
  ⟨boot 0x0002 [0x00], _, rfl, rfl, by decide⟩

theorem witness_FlatBusCells : (flat 0x8000 [0x00, 0x12] []).env.cfg.bus = .flat ∧
    (flat 0x8000 [0x00, 0x12] []).env.mem.wf = true := by decide

theorem witness_RamReadsBackWrites :
    (ref 0xC000 [0x78] [(0xFF80, 0x01)]).env.cfg.bus = .ref ∧ (ref 0xC000 [0x78] [(0xFF80, 0x01)]).env.cfg.wramMirror = false ∧
    (ref 0xC000 [0x78] [(0xFF80, 0x01)]).env.mem.wf = true ∧
    ([0xC000#16, 0xFDFF#16, 0xFF80#16, 0xFFFE#16].all fun a =>
      decide (0xC000 ≤ a.toNat ∧ a.toNat ≤ 0xFDFF ∨ 0xFF80 ≤ a.toNat ∧ a.toNat ≤ 0xFFFE)) = true := by decide

theorem witness_BusEventsAreWhatHappened : ∃ s t, s.phase = .fetch ∧ step s = .next t :=
  ⟨start22 [0x75], _, rfl, rfl⟩

theorem witness_BusEventsAreWhatHappened_fault : ∃ s t, s.phase = .fetch ∧ step s = .fault (.unimplementedOpcode t) :=
  ⟨flat 0x8000 [0xCB, 0x37] [], _, rfl, rfl⟩

theorem witness_ConfigurationIsFixed : ∃ s t, step s = .next t := ⟨start22 [0x75], _, rfl⟩

theorem witness_StepKeepsInvariant : (start22 [0x75]).Inv ∧ ∃ t, step (start22 [0x75]) = .next t :=
  ⟨by decide, _, rfl⟩

theorem witness_StepKeepsInvariant_fault : (flat 0x8000 [0x76] []).Inv ∧ ∃ r, step (flat 0x8000 [0x76] []) = .fault r :=
  ⟨by decide, _, rfl⟩

theorem witness_TickKeepsInvariant : (ticks 1 (start22 [0xEA, 0x00, 0xD0])).Inv := by decide

theorem witness_PairViewsAndWrites : Reg16.sp ≠ .af ∧ Reg16.hl ≠ .af := by decide

theorem witness_FlagPredicatesAndSetters : 0 < 8 ∧ 7 < 8 := by decide

theorem nop_writes_nothing : ¬WritesFlags .nop ∧ ¬WritesCarry .nop ∧ ¬WritesSp .nop := by
  refine ⟨?_, ?_, ?_⟩
  · rintro (⟨r, h | h | h | h | ⟨b, h⟩⟩ | h | ⟨n, h⟩ | h | h | h | ⟨b, h⟩)
    any_goals cases h
    any_goals (cases r <;> cases h)
    · revert h; revert b; cases r <;> decide
    · revert h; revert b; decide
  · rintro (⟨r, h | h⟩ | h | ⟨n, h⟩ | h)
    any_goals cases h
    all_goals (cases r <;> cases h)
  · rintro (⟨n, h⟩ | h | h | h | ⟨p, h⟩)
    any_goals cases h
    revert h; revert p; decide

theorem witness_FlagsWrittenOnlyByFlagInstructions : ∃ s t, exec .nop s = .next t ∧ ¬WritesFlags .nop ∧ ¬WritesCarry .nop :=
  ⟨State.reset, _, rfl, nop_writes_nothing.1, nop_writes_nothing.2.1⟩

theorem witness_StackPointerWriters : ∃ s t, exec .nop s = .next t ∧ ¬WritesSp .nop :=
  ⟨State.reset, _, rfl, nop_writes_nothing.2.2⟩

theorem witness_ProgramCounterAdvance : ∃ t,
    Fetches (.ld_HL_nn 0xABCD) (flat 0xFFFE [0x21, 0xCD, 0xAB] []) ∧ Instr.ld_HL_nn 0xABCD ≠ .prefix_CB ∧
    step (flat 0xFFFE [0x21, 0xCD, 0xAB] []) = .next t ∧ ∀ cc e, Instr.ld_HL_nn 0xABCD ≠ jrCc cc e := by
  refine ⟨_, ⟨rfl, by decide, by decide, by decide⟩, by decide, rfl, ?_⟩
  intro cc e
  cases cc <;> exact nofun

/-- 95_test_vectors.md P5: a store into the byte that is fetched next; here by PUSH, whose second write lands there. -/
theorem witness_StoreIsSeenByNextFetch_step : ∃ t,
    step { ref 0xC004 [0xC5, 0x00] [] with b := 0x04, c := 0x78, sp := 0xC007 } = .next t ∧ t.pc = 0xC005 ∧
    t.bus = [.rd 0xC004 0xC5, .wr 0xC006 0x04] ++ .wr 0xC005 0x78 :: [] ∧ t.env.ramCell t.pc ≠ none ∧
    (fetch t).opcode = 0x78 :=
  ⟨_, rfl, rfl, by decide, by decide, by decide⟩

theorem witness_StoreIsSeenByNextFetch : ∃ t,
    exec (ldAtHLR .a) { ref 0xC005 [0x00] [] with a := 0x04, h := 0xC0, l := 0x05 } = .next t ∧
    (ref 0xC005 [0x00] []).env.mem.wf = true ∧ (ref 0xC005 [0x00] []).env.ramCell 0xC005 ≠ none ∧
    (fetch t).opcode = 0x04 :=
  ⟨_, rfl, by decide, by decide, by decide⟩

theorem witness_OneBusAccessPerTick : (start22 [0x75]).phase = .fetch ∧ (ticks 1 (start22 [0x75])).phase ≠ .fetch := by decide

theorem witness_TicksRefineStep : ∃ t, (start22 [0x75]).phase = .fetch ∧ step (start22 [0x75]) = .next t := ⟨_, rfl, rfl⟩

theorem witness_TicksRefineStep_fault : ∃ t, (flat 0x8000 [0x76] []).phase = .fetch ∧
    step (flat 0x8000 [0x76] []) = .fault (.unimplementedOpcode t) := ⟨_, rfl, rfl⟩

/-- The hypotheses inside `Stores`: a canonical memory, a RAM cell written, an address the writes do not reach. -/
theorem witness_Stores : (start22 [0x75]).env.mem.wf = true ∧ (start22 [0x75]).env.ramCell 0xC123 ≠ none ∧
    ¬Reaches (start22 [0x75]).env 0xC123 0x23 0xC124 := by
  refine ⟨by decide, by decide, ?_⟩
  rintro (⟨-, h⟩ | ⟨h, -⟩)
  · exact absurd h (by decide)
  · exact absurd h (by decide)

/-! The hypotheses inside `RunsIn`: a state that fetches the instruction, one for each form of each statement of an instruction rule. -/

theorem witness_RunsIn_NopCompletes : Fetches .nop (start22 [0x00]) := ⟨rfl, by decide, by decide, by decide⟩
theorem witness_RunsIn_LoadRegisterFromRegister : ∀ r ∈ ([((ldRR .a .b), [0x78]), ((ldRR .b .b), [0x40])] :
    List (Instr × List Byte)), Fetches r.1 (start22 r.2) := by
  simp only [Fetches]
  decide
theorem witness_RunsIn_LoadRegisterFromImmediate : Fetches (ldRN .h 0x00) (start22 [0x26, 0x00]) := ⟨rfl, by decide, by decide, by decide⟩
theorem witness_RunsIn_LoadRegisterFromHL : Fetches (ldRAtHL .h) (start22 [0x66]) := ⟨rfl, by decide, by decide, by decide⟩
theorem witness_RunsIn_StoreThroughHL : ∀ r ∈ ([((ldAtHLR .l), [0x75]), ((.ld_atHL_n 0x7F), [0x36, 0x7F])] :
    List (Instr × List Byte)), Fetches r.1 (start22 r.2) := by
  simp only [Fetches]
  decide
theorem witness_RunsIn_AccumulatorThroughBCAndDE : ∀ r ∈ ([(.ld_A_atBC, [0x0A]), (.ld_A_atDE, [0x1A]), (.ld_atBC_A, [0x02]), (.ld_atDE_A, [0x12])] :
    List (Instr × List Byte)), Fetches r.1 (start22 r.2) := by
  simp only [Fetches]
  decide
theorem witness_RunsIn_AccumulatorPostModify : ∀ r ∈ ([(.ld_atHLinc_A, [0x22]), (.ld_atHLdec_A, [0x32]), (.ld_A_atHLinc, [0x2A]), (.ld_A_atHLdec, [0x3A])] :
    List (Instr × List Byte)), Fetches r.1 (start22 r.2) := by
  simp only [Fetches]
  decide
theorem witness_RunsIn_HighPageLoadsAndStores : ∀ r ∈ ([((.ldh_atN_A 0x90), [0xE0, 0x90]), (.ld_atC_A, [0xE2]), (.ld_A_atC, [0xF2]), ((.ldh_A_atN 0x33), [0xF0, 0x33])] :
    List (Instr × List Byte)), Fetches r.1 (start22 r.2) := by
  simp only [Fetches]
  decide
theorem witness_RunsIn_AbsoluteLoadsAndStores : ∀ r ∈ ([((.ld_A_atNN 0xD000), [0xFA, 0x00, 0xD0]), ((.ld_atNN_A 0xD000), [0xEA, 0x00, 0xD0])] :
    List (Instr × List Byte)), Fetches r.1 (start22 r.2) := by
  simp only [Fetches]
  decide
theorem witness_RunsIn_LoadPairImmediate : ∀ r ∈ ([((ldRrNn 3 0xFFFE), [0x31, 0xFE, 0xFF]), ((ldRrNn 0 0x1234), [0x01, 0x34, 0x12])] :
    List (Instr × List Byte)), Fetches r.1 (start22 r.2) := by
  simp only [Fetches]
  decide
theorem witness_RunsIn_StoreStackPointer : Fetches (.ld_atNN_SP 0xFFFF) (start22 [0x08, 0xFF, 0xFF]) := ⟨rfl, by decide, by decide, by decide⟩
theorem witness_RunsIn_LoadStackPointerFromHL : Fetches .ld_SP_HL (start22 [0xF9]) := ⟨rfl, by decide, by decide, by decide⟩
theorem witness_RunsIn_CompareInstructions : ∀ r ∈ ([((.cp_n 0x01), [0xFE, 0x01]), ((cpR .b), [0xB8]), (.cp_atHL, [0xBE])] :
    List (Instr × List Byte)), Fetches r.1 (start22 r.2) := by
  simp only [Fetches]
  decide
theorem witness_RunsIn_IncrementDecrementRegister : ∀ r ∈ ([((incR .a), [0x3C]), ((decR .b), [0x05])] :
    List (Instr × List Byte)), Fetches r.1 (start22 r.2) := by
  simp only [Fetches]
  decide
theorem witness_RunsIn_IncrementDecrementMemory : ∀ r ∈ ([(.dec_atHL, [0x35]), (.inc_atHL, [0x34])] :
    List (Instr × List Byte)), Fetches r.1 (start22 r.2) := by
  simp only [Fetches]
  decide
theorem witness_RunsIn_IncrementDecrementPair : ∀ r ∈ ([((decRr 3), [0x3B]), ((incRr 0), [0x03])] :
    List (Instr × List Byte)), Fetches r.1 (start22 r.2) := by
  simp only [Fetches]
  decide
theorem witness_RunsIn_RotateInstructions : ∀ r ∈ ([((rlR .b), [0xCB, 0x10]), (.rl_atHL, [0xCB, 0x16])] :
    List (Instr × List Byte)), Fetches r.1 (start22 r.2) := by
  simp only [Fetches]
  decide
theorem witness_RunsIn_BitTestInstructions : ∀ r ∈ ([((bitBR 7 .h), [0xCB, 0x7C]), ((bitBAtHL 0), [0xCB, 0x46])] :
    List (Instr × List Byte)), Fetches r.1 (start22 r.2) := by
  simp only [Fetches]
  decide
theorem witness_RunsIn_PushPair : ∀ r ∈ ([((pushRr 3), [0xF5]), ((pushRr 0), [0xC5])] :
    List (Instr × List Byte)), Fetches r.1 (start22 r.2) := by
  simp only [Fetches]
  decide
theorem witness_RunsIn_JumpRelativeConditional : ∀ r ∈ ([((jrCc .nz 0x80), [0x20, 0x80]), ((jrCc .z 0x80), [0x28, 0x80]), ((jrCc .nc 0x7F), [0x30, 0x7F]), ((jrCc .c 0x7F), [0x38, 0x7F])] :
    List (Instr × List Byte)), Fetches r.1 (start22 r.2) := by
  simp only [Fetches]
  decide
/-- In the state above Z and Cf are set, so `JR Z` and `JR C` are taken and `JR NZ` and `JR NC` are not. -/
theorem witness_JumpRelativeConditional : [Cond.nz, .z, .nc, .c].map (fun cc => condHolds cc (start22 []).f) =
    [false, true, false, true] := by decide

end Sys2Proof.Tests
end

/-! The family of 00_scope.md: the parameters of R6 are fixed (O21), a `RefBus` without `BootRom` is refused and nothing
else is (O60), and a word of each family of R3 decodes to its instruction (O5). What each part of a step can answer is said
once, from the operands up to `step`, and the obligations are read off. -/

namespace Sys2Proof.Machine

/-! ## The configuration of a state -/

/-- The parameters of R6: those of the core and those of the environment. -/
def State.config (s : State) : CoreConfig × Config := (s.cfg, s.env.cfg)

@[simp] theorem complete_config (s : State) : (complete s).config = s.config := rfl

@[simp] theorem enterFault_config (k : FaultKind) (op : Byte) (cb : Bool) (s : State) :
    (enterFault k op cb s).config = s.config := rfl

@[simp] theorem memRead_config (x : Addr) (s : State) : (memRead x s).2.config = s.config := by
  simp [State.config]

@[simp] theorem memWrite_config (x : Addr) (v : Byte) (s : State) : (memWrite x v s).config = s.config := by
  simp [State.config]

@[simp] theorem imm8_config (s : State) : (imm8 s).2.config = s.config := by
  simp [State.config]

@[simp] theorem imm16_config (s : State) : (imm16 s).2.config = s.config := by
  simp [State.config]

@[simp] theorem fetch_config (s : State) : (fetch s).config = s.config := by
  simp [State.config]

@[simp] theorem fetchCb_config (s : State) : (fetchCb s).config = s.config := by
  simp [State.config]

@[simp] theorem push16_config (w : Word) (s : State) : (push16 w s).config = s.config := by
  simp [State.config]

@[simp] theorem setReg8_config (s : State) (r : Reg8) (v : Byte) : (s.setReg8 r v).config = s.config := by
  simp [State.config]

@[simp] theorem setReg16_config (s : State) (rr : Reg16) (w : Word) : (s.setReg16 rr w).config = s.config := by
  simp [State.config]

@[simp] theorem Operand8.read_config (k : Operand8) (s : State) : (k.read s).2.config = s.config := by
  cases k <;> simp [Operand8.read]

@[simp] theorem Operand16.read_config (k : Operand16) (s : State) : (k.read s).2.config = s.config := by
  cases k <;> simp [Operand16.read, memRead16]

theorem Operand8.write_config {k : Operand8} {v : Byte} {s t : State} (h : k.write v s = .next t) :
    t.config = s.config := by
  cases k <;> cases h <;> simp

theorem Operand16.write_config {k : Operand16} {w : Word} {s t : State} (h : k.write w s = .next t) :
    t.config = s.config := by
  cases k <;> cases h <;> simp [memWrite16]

theorem modify_config {op : Byte → Byte → Byte × Byte} {k : Operand8} {s t : State} (h : modify op k s = .next t) :
    t.config = s.config := by
  obtain ⟨s', hw, rfl⟩ := modify_next h
  simpa using (Operand8.write_config hw).trans (k.read_config s)

/-- A handler keeps the configuration. -/
theorem IsHandler.next_config {s t : State} {r : Result} (h : IsHandler s r) (hr : r = .next t) :
    t.config = s.config := by
  cases h with
  | noOperation => cases hr; rfl
  | ld8 dst src _ =>
    obtain ⟨s', hw, rfl⟩ := ld8_next hr
    simpa using Operand8.write_config hw
  | ld16 dst src _ _ =>
    obtain ⟨s', hw, rfl⟩ := ld16_next hr
    simpa using Operand16.write_config hw
  | compareWithA src => cases hr; exact src.read_config s
  | increment k _ => exact modify_config hr
  | decrement k _ => exact modify_config hr
  | rotateLeft k _ => exact modify_config hr
  | bitTest b k => cases hr; exact k.read_config s
  | increment16 rr _ => cases hr; simp
  | decrement16 rr _ => cases hr; simp
  | push rr => cases hr; simp
  | jumpRelative cc e =>
    cases hr
    split <;> rfl

/-- A meaning that completes keeps the configuration. -/
theorem exec_config {i : Instr} {s t : State} (h : exec i s = .next t) : t.config = s.config := by
  obtain hh | rfl | ⟨op, cb, rfl⟩ := exec_isHandler i s
  · exact hh.next_config h
  · cases h
    exact fetchCb_config s
  · cases h

/-! ## What a meaning answers -/

/-- A write of an 8-bit operand that is not an immediate answers a next state. -/
theorem Operand8.write_writable {k : Operand8} (hk : ∀ n, k ≠ .imm8 n) (v : Byte) (s : State) :
    ∃ t, k.write v s = .next t := by
  obtain ⟨n, rfl, -⟩ | h := k.write_answers v s
  · exact absurd rfl (hk n)
  · exact h

/-- A write of a 16-bit operand that is not an immediate answers a next state. -/
theorem Operand16.write_writable {k : Operand16} (hk : ∀ nn, k ≠ .imm16 nn) (w : Word) (s : State) :
    ∃ t, k.write w s = .next t := by
  obtain ⟨nn, rfl, -⟩ | h := k.write_answers w s
  · exact absurd rfl (hk nn)
  · exact h

theorem modify_writable (op : Byte → Byte → Byte × Byte) {k : Operand8} (hk : ∀ n, k ≠ .imm8 n) (s : State) :
    ∃ t, modify op k s = .next t := by
  obtain ⟨s', hw⟩ := Operand8.write_writable hk (op (k.read s).1 (k.read s).2.f).1
    { (k.read s).2 with f := (op (k.read s).1 (k.read s).2.f).2 }
  exact ⟨complete s', thenComplete_next.mpr ⟨s', hw, rfl⟩⟩

/-- A handler over operands that an instruction may write answers a next state. -/
theorem IsHandler.answers {s : State} {r : Result} (h : IsHandler s r) : ∃ t, r = .next t := by
  cases h with
  | ld8 dst src hd =>
    obtain ⟨s', hw⟩ := Operand8.write_writable hd (src.read s).1 (src.read s).2
    exact ⟨complete s', thenComplete_next.mpr ⟨s', hw, rfl⟩⟩
  | ld16 dst src hd _ =>
    obtain ⟨s', hw⟩ := Operand16.write_writable hd (src.read s).1 (src.read s).2
    exact ⟨complete s', thenComplete_next.mpr ⟨s', hw, rfl⟩⟩
  | increment k hk => exact modify_writable inc8 hk s
  | decrement k hk => exact modify_writable dec8 hk s
  | rotateLeft k hk => exact modify_writable rl8 hk s
  | noOperation | compareWithA | bitTest | increment16 | decrement16 | push | jumpRelative => exact ⟨_, rfl⟩

/-- What a meaning answers: a next state, or, for a pair without a handler alone, the fault of R331. -/
theorem exec_answers (i : Instr) (s : State) :
    (∃ t, exec i s = .next t) ∨ ∃ op cb, i = .unimplemented op cb ∧ exec i s = raiseUnimplemented op cb s := by
  obtain h | rfl | ⟨op, cb, rfl⟩ := exec_isHandler i s
  · exact .inl h.answers
  · exact .inl ⟨fetchCb s, rfl⟩
  · exact .inr ⟨op, cb, rfl, rfl⟩

theorem exec_ne_refused (i : Instr) (s : State) (e : Refusal) : exec i s ≠ .refused e := by
  obtain ⟨t, h⟩ | ⟨op, cb, -, h⟩ := exec_answers i s <;> rw [h] <;> nofun

/-! ## The rest of an instruction, from Decode and from Execute -/

@[simp] theorem takeOperands_config (s : State) : (takeOperands s).2.config = s.config := by
  unfold takeOperands
  split <;> simp

/-- What R145 runs from Decode: the meaning of the latched pair or, where that is PREFIX CB, of the pair latched next. -/
theorem decodeAndExecute_cases (s : State) :
    ((takeOperands s).1 ≠ .prefix_CB ∧ decodeAndExecute s = exec (takeOperands s).1 (takeOperands s).2) ∨
    ((takeOperands s).1 = .prefix_CB ∧ decodeAndExecute s = runDecoded (fetchCb (takeOperands s).2)) := by
  by_cases h : (takeOperands s).1 = .prefix_CB
  · exact .inr ⟨h, by simp only [decodeAndExecute, h, if_true]; rfl⟩
  · exact .inl ⟨h, by simp only [decodeAndExecute, h, if_false]⟩

theorem runDecoded_config {s t : State} (h : runDecoded s = .next t) : t.config = s.config :=
  (exec_config h).trans (takeOperands_config s)

theorem runDecoded_ne_refused (s : State) (e : Refusal) : runDecoded s ≠ .refused e :=
  exec_ne_refused _ _ e

theorem decodeAndExecute_config {s t : State} (h : decodeAndExecute s = .next t) : t.config = s.config := by
  obtain ⟨-, e⟩ | ⟨-, e⟩ := decodeAndExecute_cases s <;> rw [e] at h
  · simpa using exec_config h
  · simpa using runDecoded_config h

theorem decodeAndExecute_ne_refused (s : State) (e : Refusal) : decodeAndExecute s ≠ .refused e := by
  obtain ⟨-, h⟩ | ⟨-, h⟩ := decodeAndExecute_cases s <;> rw [h]
  · exact exec_ne_refused _ _ e
  · exact runDecoded_ne_refused _ e

@[simp] theorem Place.after_config (pl : Place) (s : State) : (pl.after s).config = s.config := by
  cases pl with
  | hlInc | hlDec => exact setReg16_config s .hl _
  | ptr | highC | highScratch | abs | absNext | stack => rfl

/-- Every stage keeps the configuration. -/
@[simp] theorem Stage.run_config (st : Stage) (s : State) : (st.run s).config = s.config := by
  cases st with
  | immByte => exact imm8_config s
  | immHigh => exact imm8_config s
  | cbByte => exact fetchCb_config s
  | load pl => exact (pl.after_config _).trans (memRead_config _ s)
  | loadHigh pl => exact (pl.after_config _).trans (memRead_config _ s)
  | store pl d => exact (pl.after_config _).trans (memWrite_config _ _ s)
  | regWrite r d => exact setReg8_config s r _
  | pairWrite rr d => exact setReg16_config s rr _
  | jump cc => simp only [Stage.run]; split <;> rfl
  | misuse => exact enterFault_config _ _ _ s
  | regRead | pairRead | pairUp | pairDown | compareA | compute | testBit => rfl

theorem runStages_config {stages : List Stage} : ∀ {s t : State}, runStages stages s = .next t →
    t.config = s.config := by
  induction stages with
  | nil => intro s t h; cases h; rfl
  | cons st rest ih =>
    intro s t h
    rw [runStages] at h
    split at h
    · cases h
    · exact (ih h).trans (st.run_config s)

theorem runStages_ne_refused {stages : List Stage} (e : Refusal) : ∀ s : State,
    runStages stages s ≠ .refused e := by
  induction stages with
  | nil => intro s; nofun
  | cons st rest ih =>
    intro s
    rw [runStages]
    split
    · nofun
    · exact ih (st.run s)

/-- What a step from inside an instruction runs: where the stage of R146 is pending, the pair latched next; else the pending stages. -/
theorem resume_cases (s : State) : resume s = runDecoded (fetchCb s) ∨ resume s = runStages s.pending s := by
  unfold resume
  split
  · exact .inl rfl
  · exact .inr rfl

theorem resume_config {s t : State} (h : resume s = .next t) : t.config = s.config := by
  obtain e | e := resume_cases s <;> rw [e] at h
  · simpa using runDecoded_config h
  · exact runStages_config h

theorem resume_ne_refused (s : State) (e : Refusal) : resume s ≠ .refused e := by
  obtain h | h := resume_cases s <;> rw [h]
  · exact runDecoded_ne_refused _ e
  · exact runStages_ne_refused e s

/-! ## The step -/

/-- The configurations that U8 refuses. -/
theorem accepted_eq_false {c : Config} : c.accepted = false ↔ c.bus = .ref ∧ c.bootRom = none := by
  simp [Config.accepted]

theorem ifAccepted_next {s t : State} {r : Result} :
    ifAccepted s r = .next t ↔ s.env.cfg.accepted = true ∧ r = .next t := by
  unfold ifAccepted
  split <;> simp [*]

/-- What a step that completes has run, by the phase it starts from. -/
theorem step_next {s t : State} (h : step s = .next t) : s.env.cfg.accepted = true ∧
    (s.phase = .fetch ∧ decodeAndExecute (fetch s) = .next t ∨ s.phase = .decode ∧ decodeAndExecute s = .next t ∨
      s.phase = .execute ∧ resume s = .next t) := by
  unfold step at h
  cases hp : s.phase <;> simp only [hp, ifAccepted_next, reduceCtorEq] at h
  case fetch => exact ⟨h.1, .inl ⟨rfl, h.2⟩⟩
  case decode => exact ⟨h.1, .inr (.inl ⟨rfl, h.2⟩)⟩
  case execute => exact ⟨h.1, .inr (.inr ⟨rfl, h.2⟩)⟩

/-- A step that completes keeps the configuration. -/
theorem step_config {s t : State} (h : step s = .next t) : t.config = s.config := by
  obtain ⟨-, ⟨-, h⟩ | ⟨-, h⟩ | ⟨-, h⟩⟩ := step_next h
  · exact (decodeAndExecute_config h).trans (fetch_config s)
  · exact decodeAndExecute_config h
  · exact resume_config h

/-- A step of a core that has not faulted is refused where the configuration is not accepted. -/
theorem step_of_not_accepted {s : State} (hp : s.phase ≠ .faulted) (h : s.env.cfg.accepted = false) :
    step s = .refused .bootRomMissing := by
  unfold step
  cases hs : s.phase with
  | faulted => exact absurd hs hp
  | fetch | decode | execute => simp [ifAccepted, h]

theorem ifAccepted_ne_refused {s : State} {r : Result} {e : Refusal} (ha : s.env.cfg.accepted = true)
    (hr : r ≠ .refused e) : ifAccepted s r ≠ .refused e := by
  simpa [ifAccepted, ha] using hr

/-- A step under an accepted configuration is not refused. -/
theorem step_ne_refused {s : State} (ha : s.env.cfg.accepted = true) (e : Refusal) : step s ≠ .refused e := by
  unfold step
  cases s.phase with
  | fetch => exact ifAccepted_ne_refused ha (decodeAndExecute_ne_refused (fetch s) e)
  | decode => exact ifAccepted_ne_refused ha (decodeAndExecute_ne_refused s e)
  | execute => exact ifAccepted_ne_refused ha (resume_ne_refused s e)
  | faulted => nofun

/-! ## The obligations -/

/-- Settles O21: every part of a step keeps the configuration, by the phase it starts from. -/
theorem configurationIsFixed : Obligations.ConfigurationIsFixed := by
  unfold Obligations.ConfigurationIsFixed
  intro s t h
  exact Prod.mk.inj (step_config h)

/-- Settles O60: a step asks first whether the configuration is accepted, and no meaning and no rest of a handler refuses. -/
theorem refBusNeedsBootRom : Obligations.RefBusNeedsBootRom := by
  unfold Obligations.RefBusNeedsBootRom
  constructor
  · intro s hp hb hr
    exact step_of_not_accepted hp (accepted_eq_false.mpr ⟨hb, hr⟩)
  · intro s e h
    have hn : s.env.cfg.accepted = false := by
      by_contra ha
      exact step_ne_refused (Bool.eq_true_of_not_eq_false ha) e h
    exact accepted_eq_false.mp hn

/-- Settles O5: the decoder evaluated on the fourteen words. -/
theorem writtenWordsDecode : Obligations.WrittenWordsDecode := by
  unfold Obligations.WrittenWordsDecode
  and_intros <;> decide

end Sys2Proof.Machine

/-! The family of 10_state.md: the invariant (O23, O24, O25), where a step and a controller call leave the machine (O14,
O57), reset (O22), register pairs and flags (O26, O27), and who writes F, SP and PC (O52, O53, O54). A step that answers
and a controller call both end in one of three ways from a state that the instruction's work has led to (`Ends`,
`Settled`), so what that work keeps (`State.Clean`) is proved once for each operation, and the obligations are read
off. -/

namespace Sys2Proof.Machine

/-! ## What the work of an instruction keeps -/

/-- The invariant of a core that has not faulted: F[3:0] is zero, memory is canonical, there is no fault record. -/
def State.Clean (s : State) : Prop := nibble s.f = 0 ∧ s.env.mem.wf = true ∧ s.fault = none

theorem State.inv_iff_clean {s : State} (hp : s.phase ≠ .faulted) : s.Inv ↔ s.Clean := by
  simp [State.Inv, State.Clean, hp]

theorem State.Clean.complete_inv {s : State} (h : s.Clean) : (complete s).Inv :=
  (State.inv_iff_clean (by simp)).mpr h

theorem State.Clean.enterFault_inv {s : State} (h : s.Clean) (k : FaultKind) (op : Byte) (cb : Bool) :
    (enterFault k op cb s).Inv := by
  obtain ⟨hf, hm, -⟩ := h
  exact ⟨hf, hm, by simp⟩

/-- A change of F that keeps its low nibble. -/
theorem State.Clean.setF {s : State} (h : s.Clean) {g : Byte} (hg : nibble g = nibble s.f) :
    ({ s with f := g } : State).Clean := by
  obtain ⟨hf, hm, hn⟩ := h
  exact ⟨hg.trans hf, hm, hn⟩

theorem State.Clean.memRead {s : State} (h : s.Clean) (x : Addr) : (memRead x s).2.Clean := by
  simpa [State.Clean] using h

theorem State.Clean.memWrite {s : State} (h : s.Clean) (x : Addr) (v : Byte) : (memWrite x v s).Clean := by
  obtain ⟨hf, hm, hn⟩ := h
  exact ⟨hf, Env.write_wf hm x v, hn⟩

theorem State.Clean.imm8 {s : State} (h : s.Clean) : (imm8 s).2.Clean := h.memRead s.pc

theorem State.Clean.imm16 {s : State} (h : s.Clean) : (imm16 s).2.Clean := h.imm8.imm8

theorem State.Clean.fetch {s : State} (h : s.Clean) : (fetch s).Clean := h.memRead s.pc

theorem State.Clean.fetchCb {s : State} (h : s.Clean) : (fetchCb s).Clean := h.memRead s.pc

theorem State.Clean.setReg8 {s : State} (h : s.Clean) (r : Reg8) (v : Byte) : (s.setReg8 r v).Clean := by
  simpa [State.Clean] using h

/-- The mask of the AF setter (R23). -/
theorem nibble_and_F0 (v : Byte) : nibble (v &&& 0xF0) = 0 := by
  revert v
  decide

/-- A pair write keeps F or, for AF, clears its low nibble. -/
theorem State.Clean.setReg16 {s : State} (h : s.Clean) (rr : Reg16) (w : Word) : (s.setReg16 rr w).Clean := by
  obtain ⟨hf, hm, hn⟩ := h
  cases rr with
  | af => exact ⟨nibble_and_F0 _, hm, hn⟩
  | bc | de | hl | sp => exact ⟨hf, hm, hn⟩

theorem State.Clean.push16 {s : State} (h : s.Clean) (w : Word) : (push16 w s).Clean := by
  obtain ⟨hf, hm, hn⟩ := h
  exact ⟨hf, Env.write_wf (Env.write_wf hm _ _) _ _, hn⟩

theorem State.Clean.read8 {s : State} (h : s.Clean) (k : Operand8) : (k.read s).2.Clean := by
  cases k with
  | reg | imm8 => exact h
  | indInc | indDec => exact (h.memRead _).setReg16 .hl _
  | ind | highC | direct8Abs | direct8High => exact h.memRead _

theorem State.Clean.read16 {s : State} (h : s.Clean) (k : Operand16) : (k.read s).2.Clean := by
  cases k with
  | reg16 | imm16 => exact h
  | direct16 nn => exact (h.memRead nn).memRead (nn + 1)

theorem State.Clean.write8 {s t : State} (h : s.Clean) {k : Operand8} {v : Byte} (hw : k.write v s = .next t) :
    t.Clean := by
  cases k <;> cases hw
  case reg r => exact h.setReg8 r v
  case indInc | indDec => exact (h.memWrite _ v).setReg16 .hl _
  all_goals exact h.memWrite _ v

theorem State.Clean.write16 {s t : State} (h : s.Clean) {k : Operand16} {w : Word} (hw : k.write w s = .next t) :
    t.Clean := by
  cases k <;> cases hw
  case reg16 rr => exact h.setReg16 rr w
  case direct16 nn => exact (h.memWrite nn _).memWrite (nn + 1) _

/-- A computation on a byte and F that keeps the low nibble of F. -/
def KeepsNibble (op : Byte → Byte → Byte × Byte) : Prop := ∀ v f, nibble (op v f).2 = nibble f

/-! ## How a meaning and a step end -/

/-- "fetch next" after work that keeps a clean state clean. -/
def Completes (s t : State) : Prop := ∃ u : State, (s.Clean → u.Clean) ∧ t = complete u

theorem modify_completes {op : Byte → Byte → Byte × Byte} (hop : KeepsNibble op) {k : Operand8} {s t : State}
    (h : modify op k s = .next t) : Completes s t := by
  obtain ⟨u, hw, rfl⟩ := modify_next h
  refine ⟨u, fun hc => ((hc.read8 k).setF ?_).write8 hw, rfl⟩
  rw [hop, k.read_f]

/-- A handler that answers ends in "fetch next". -/
theorem IsHandler.completes {s t : State} {r : Result} (h : IsHandler s r) (hr : r = .next t) : Completes s t := by
  cases h with
  | noOperation => cases hr; exact ⟨s, id, rfl⟩
  | ld8 dst src _ =>
    obtain ⟨u, hw, rfl⟩ := ld8_next hr
    exact ⟨u, fun hc => (hc.read8 src).write8 hw, rfl⟩
  | ld16 dst src _ _ =>
    obtain ⟨u, hw, rfl⟩ := ld16_next hr
    exact ⟨u, fun hc => (hc.read16 src).write16 hw, rfl⟩
  | compareWithA src => cases hr; exact ⟨_, fun hc => (hc.read8 src).setF (by simp), rfl⟩
  | increment k _ => exact modify_completes inc8_nibble hr
  | decrement k _ => exact modify_completes dec8_nibble hr
  | rotateLeft k _ => exact modify_completes rl8_nibble hr
  | bitTest b k => cases hr; exact ⟨_, fun hc => (hc.read8 k).setF (by simp), rfl⟩
  | increment16 rr _ | decrement16 rr _ => cases hr; exact ⟨_, fun hc => hc.setReg16 rr _, rfl⟩
  | push rr => cases hr; exact ⟨_, fun hc => hc.push16 _, rfl⟩
  | jumpRelative cc e =>
    cases hr
    refine ⟨_, fun hc => ?_, rfl⟩
    split <;> exact hc

/-- What the work of an instruction from `s` answers: "fetch next", or one of the two faults, from a state that is clean
where `s` is. -/
inductive Ends (s : State) : Result → Prop where
  | next (t : State) (h : Completes s t) : Ends s (.next t)
  | unimplemented (op : Byte) (cb : Bool) (u : State) (h : s.Clean → u.Clean) : Ends s (raiseUnimplemented op cb u)
  | misuse (u : State) (h : s.Clean → u.Clean) : Ends s (raiseMisuse u)

/-- Work done before. -/
theorem Ends.after {s u : State} {r : Result} (hu : s.Clean → u.Clean) (h : Ends u r) : Ends s r := by
  cases h with
  | next t h =>
    obtain ⟨w, hw, rfl⟩ := h
    exact .next _ ⟨w, hw ∘ hu, rfl⟩
  | unimplemented op cb w hw => exact .unimplemented op cb w (hw ∘ hu)
  | misuse w hw => exact .misuse w (hw ∘ hu)

/-- Every meaning but that of PREFIX CB ends the instruction. -/
theorem exec_ends {i : Instr} (hi : i ≠ .prefix_CB) (s : State) : Ends s (exec i s) := by
  obtain h | rfl | ⟨op, cb, rfl⟩ := exec_isHandler i s
  · obtain ⟨t, ht⟩ := h.answers
    rw [ht]
    exact .next t (h.completes ht)
  · exact absurd rfl hi
  · exact .unimplemented op cb s id

theorem State.Clean.takeOperands {s : State} (h : s.Clean) : (takeOperands s).2.Clean := by
  unfold Machine.takeOperands
  split
  · exact h
  · exact h
  · exact h.imm8
  · exact h.imm16

/-- What the configured set gives a pair is the table's entry of the pair. -/
theorem entryIn_ok {m : Implemented} {cb : Bool} {op : Byte} {row : Row} (h : entryIn m cb op = row)
    (hr : row ≠ .absent) : EntryOk cb op row := by
  unfold entryIn at h
  split at h
  · exact h ▸ tableEntry_ok cb op
  · exact absurd h.symm hr

/-- The CB table does not hold PREFIX CB: the pair latched after it is an instruction's own (R111). -/
theorem takeOperands_ne_prefix_CB {s : State} (h : s.cb = true) : (takeOperands s).1 ≠ .prefix_CB := by
  unfold takeOperands
  cases he : entryIn s.cfg.implemented s.cb s.opcode with
  | absent => nofun
  | plain i =>
    obtain ⟨-, -, hcb, -⟩ := entryIn_ok he nofun
    rintro rfl
    exact absurd (hcb.trans h) (by decide)
  | imm8 f | imm16 f =>
    obtain ⟨-, hcb, -⟩ := entryIn_ok he nofun
    exact absurd (h.symm.trans hcb) (by decide)

theorem runDecoded_ends {s : State} (h : s.cb = true) : Ends s (runDecoded s) :=
  (exec_ends (takeOperands_ne_prefix_CB h) _).after State.Clean.takeOperands

theorem decodeAndExecute_ends (s : State) : Ends s (decodeAndExecute s) := by
  obtain ⟨hi, e⟩ | ⟨-, e⟩ := decodeAndExecute_cases s <;> rw [e]
  · exact (exec_ends hi _).after State.Clean.takeOperands
  · exact (runDecoded_ends rfl).after fun h => h.takeOperands.fetchCb

/-! ## Stages -/

theorem State.Clean.placeAfter {s : State} (h : s.Clean) (pl : Place) : (pl.after s).Clean := by
  cases pl with
  | hlInc | hlDec => exact h.setReg16 .hl _
  | ptr | highC | highScratch | abs | absNext | stack => exact h

theorem Modify.run_keepsNibble (m : Modify) : KeepsNibble m.run := by
  cases m with
  | inc => exact inc8_nibble
  | dec => exact dec8_nibble
  | rl => exact rl8_nibble

@[simp] theorem Datum.value_nibble (d : Datum) (s : State) : nibble (d.value s).2 = nibble s.f := by
  cases d with
  | modified m => exact m.run_keepsNibble _ _
  | byte | reg | scratch | lo | hi => rfl

/-- Every stage but the misuse keeps a clean state clean. -/
theorem State.Clean.stage {s : State} (h : s.Clean) {st : Stage} (hst : st ≠ .misuse) : (st.run s).Clean := by
  cases st with
  | immByte | immHigh => exact h.imm8
  | cbByte => exact h.fetchCb
  | load pl | loadHigh pl => exact (h.memRead _).placeAfter pl
  | store pl d => exact ((h.memWrite _ _).setF (d.value_nibble s)).placeAfter pl
  | regWrite r d => exact (h.setReg8 r _).setF (by simp)
  | pairWrite rr d => exact h.setReg16 rr _
  | compareA | testBit => exact h.setF (by simp)
  | compute m => exact h.setF (m.run_keepsNibble _ _)
  | jump cc => simp only [Stage.run]; split <;> exact h
  | misuse => exact absurd rfl hst
  | regRead | pairRead | pairUp | pairDown => exact h

theorem State.Clean.advance {s : State} (h : s.Clean) {st : Stage} (hst : st ≠ .misuse) : (advance st s).Clean :=
  h.stage hst

theorem runStages_ends (stages : List Stage) : ∀ s : State, Ends s (runStages stages s) := by
  induction stages with
  | nil => intro s; exact .next _ ⟨s, id, rfl⟩
  | cons st rest ih =>
    intro s
    rw [runStages]
    split
    · exact .misuse s id
    · next hst => exact (ih (st.run s)).after fun h => h.stage hst

theorem resume_ends (s : State) : Ends s (resume s) := by
  obtain e | e := resume_cases s <;> rw [e]
  · exact (runDecoded_ends rfl).after State.Clean.fetchCb
  · exact runStages_ends _ s

/-! ## The step -/

/-- What a step answers: a faulted core's own fault, the refusal of U8, or an end of the instruction. -/
theorem step_ends (s : State) : (s.phase = .faulted ∧ step s = .fault (.alreadyFaulted s)) ∨
    step s = .refused .bootRomMissing ∨ (s.phase ≠ .faulted ∧ Ends s (step s)) := by
  cases ha : s.env.cfg.accepted with
  | false =>
    by_cases hp : s.phase = .faulted
    · exact .inl ⟨hp, by simp only [step, hp]⟩
    · exact .inr (.inl (step_of_not_accepted hp ha))
  | true =>
    cases hp : s.phase <;> simp only [step, hp, ifAccepted, ha, if_true]
    case faulted => exact .inl ⟨trivial, trivial⟩
    case fetch => exact .inr (.inr ⟨nofun, (decodeAndExecute_ends _).after State.Clean.fetch⟩)
    case decode => exact .inr (.inr ⟨nofun, decodeAndExecute_ends s⟩)
    case execute => exact .inr (.inr ⟨nofun, resume_ends s⟩)

theorem Ends.fault_inv {s : State} {r : Result} (h : Ends s r) (hc : s.Clean) {e : Fault} (he : r = .fault e) :
    e.state.Inv := by
  cases h with
  | next => cases he
  | unimplemented op cb u hu => cases he; exact (hu hc).enterFault_inv _ _ _
  | misuse u hu => cases he; exact (hu hc).enterFault_inv _ _ _

theorem Ends.next_completes {s t : State} {r : Result} (h : Ends s r) (ht : r = .next t) : Completes s t := by
  cases h with
  | next t' h => cases ht; exact h
  | unimplemented | misuse => cases ht

theorem step_completes {s t : State} (h : step s = .next t) : s.phase ≠ .faulted ∧ Completes s t := by
  obtain ⟨-, e⟩ | e | ⟨hp, hs⟩ := step_ends s
  · rw [e] at h; cases h
  · rw [e] at h; cases h
  · exact ⟨hp, hs.next_completes h⟩

/-! ## The controller call -/

/-- Where a run of register-only stages that has come to `u` leaves the controller: at "fetch next", in a fault, or in
Execute before a stage that needs a tick. -/
inductive Settled (u : State) : State → Prop where
  | complete : Settled u (complete u)
  | fault (k : FaultKind) (op : Byte) (cb : Bool) : Settled u (enterFault k op cb u)
  | waits (st : Stage) (rest : List Stage) (hp : u.phase = .execute) (hd : u.pending = st :: rest)
      (hn : st.needsTick u = true) : Settled u u

/-- `t` is where the controller settles after work from `s`. -/
def Settles (s t : State) : Prop := ∃ u : State, (s.Clean → u.Clean) ∧ Settled u t

theorem Settles.after {s u t : State} (hu : s.Clean → u.Clean) (h : Settles u t) : Settles s t := by
  obtain ⟨w, hw, ht⟩ := h
  exact ⟨w, hw ∘ hu, ht⟩

theorem Settles.misuse (s : State) : Settles s (Stage.misuse.run s) := ⟨s, id, .fault _ _ _⟩

theorem Stage.plain_of_ne {st : Stage} (hm : st ≠ .misuse) (hc : st ≠ .cbByte) : st.plain = true := by
  cases st <;> first | rfl | contradiction

theorem advance_phase {st : Stage} (h : st.plain = true) (s : State) : (advance st s).phase = s.phase :=
  (Stage.run_keeps h s).1

/-- A plain stage done, the stages after it are pending. -/
theorem advance_pending {st : Stage} (h : st.plain = true) {s : State} {rest : List Stage}
    (hd : s.pending = st :: rest) : (advance st s).pending = rest := by
  obtain ⟨-, hh, -, hc⟩ := Stage.run_keeps h s
  have e := congrArg (List.drop 1) hd
  simp only [State.pending, List.drop_drop] at e
  simpa [State.pending, State.stagesOf, advance, hh, hc] using e

theorem runAhead_settles (stages : List Stage) : ∀ s : State, s.phase = .execute → s.pending = stages →
    Settles s (runAhead stages s) := by
  induction stages with
  | nil => intro s _ _; exact ⟨s, id, .complete⟩
  | cons st rest ih =>
    intro s hp hd
    rw [runAhead]
    by_cases hn : st.needsTick s = true
    · rw [if_pos hn]
      exact ⟨s, id, .waits st rest hp hd hn⟩
    · rw [if_neg hn]
      by_cases hm : st = .misuse
      · rw [if_pos hm, hm]
        exact .misuse s
      · rw [if_neg hm]
        have hpl : st.plain = true := Stage.plain_of_ne hm (by rintro rfl; exact hn rfl)
        exact (ih _ ((advance_phase hpl s).trans hp) (advance_pending hpl hd)).after fun h => h.advance hm

theorem enterHandler_settles (s : State) : Settles s (enterHandler s) := by
  unfold enterHandler
  split
  · exact ⟨s, id, .fault _ _ _⟩
  · next h _ => exact (runAhead_settles _ (startState h s) rfl rfl).after id

/-- A controller call does nothing to a faulted core, and leaves any other settled. -/
theorem tick_settles (s : State) : (s.phase = .faulted ∧ tick s = s) ∨ (s.phase ≠ .faulted ∧ Settles s (tick s)) := by
  cases hp : s.phase with
  | faulted => exact .inl ⟨rfl, by simp only [tick, hp]⟩
  | fetch =>
    rw [tick_fetch hp]
    exact .inr ⟨nofun, (enterHandler_settles _).after State.Clean.fetch⟩
  | decode =>
    simp only [tick, hp]
    exact .inr ⟨nofun, enterHandler_settles s⟩
  | execute =>
    refine .inr ⟨nofun, ?_⟩
    simp only [tick, hp]
    split
    · exact ⟨s, id, .complete⟩
    · exact (enterHandler_settles _).after State.Clean.fetchCb
    · next st rest hcb hd =>
      split
      · next hm => rw [hm]; exact .misuse s
      · next hm =>
        have hpl : st.plain = true := Stage.plain_of_ne hm hcb
        exact (runAhead_settles rest _ ((advance_phase hpl s).trans hp) (advance_pending hpl hd)).after
          fun h => h.advance hm

theorem Settled.inv {u t : State} (h : Settled u t) (hc : u.Clean) : t.Inv := by
  cases h with
  | complete => exact hc.complete_inv
  | fault k op cb => exact hc.enterFault_inv k op cb
  | waits st rest hp _ _ => exact (State.inv_iff_clean (by rw [hp]; nofun)).mpr hc

theorem Settled.noWorkLeft {u t : State} (h : Settled u t) : t.phase ≠ .decode ∧
    (t.phase = .execute → ∃ st rest, t.pending = st :: rest ∧ st.needsTick t = true) := by
  cases h with
  | complete | fault => exact ⟨nofun, nofun⟩
  | waits st rest hp hd hn => exact ⟨by rw [hp]; nofun, fun _ => ⟨st, rest, hd, hn⟩⟩

/-! ## The obligations about steps and calls -/

/-- Settles O24: a core that has not faulted is clean, the work of the instruction keeps that, and both ends of a step
turn it into the invariant. -/
theorem stepKeepsInvariant : Obligations.StepKeepsInvariant := by
  unfold Obligations.StepKeepsInvariant
  intro s hs
  constructor
  · intro t h
    obtain ⟨hp, u, hu, rfl⟩ := step_completes h
    exact (hu ((State.inv_iff_clean hp).mp hs)).complete_inv
  · intro r h
    obtain ⟨-, e⟩ | e | ⟨hp, he⟩ := step_ends s
    · rw [e] at h; cases h; exact hs
    · rw [e] at h; cases h
    · exact he.fault_inv ((State.inv_iff_clean hp).mp hs) h

/-- Settles O25: a call leaves a faulted core as it is, and settles any other at a state that its clean work has led
to. -/
theorem tickKeepsInvariant : Obligations.TickKeepsInvariant := by
  unfold Obligations.TickKeepsInvariant
  intro s hs
  obtain ⟨-, e⟩ | ⟨hp, u, hu, ht⟩ := tick_settles s
  · rw [e]; exact hs
  · exact ht.inv (hu ((State.inv_iff_clean hp).mp hs))

/-- Settles O14: a step that completes ends in "fetch next". -/
theorem stepEndsAtBoundary : Obligations.StepEndsAtBoundary := by
  unfold Obligations.StepEndsAtBoundary
  intro s t h
  obtain ⟨-, u, -, rfl⟩ := step_completes h
  exact ⟨rfl, rfl, rfl, rfl, rfl⟩

/-- Settles O57: a call that stays in Execute has run ahead to a stage that needs a tick. -/
theorem noWorkIsLeftBetweenCalls : Obligations.NoWorkIsLeftBetweenCalls := by
  unfold Obligations.NoWorkIsLeftBetweenCalls
  intro s
  obtain ⟨hp, e⟩ | ⟨-, u, -, ht⟩ := tick_settles s
  · rw [e, hp]
    exact ⟨nofun, nofun⟩
  · exact ht.noWorkLeft

/-! ## Reset, register pairs and flags -/

/-- The high nibble of F after reset is that of `RegInit`, the low nibble zero (R43). -/
theorem flags_append_zero (g : BitVec 4) : nibble (g ++ 0#4) = 0 ∧ (g ++ 0#4).extractLsb' 4 4 = g := by
  revert g
  decide

/-- Settles O22: the fields of `State.resetWith`, F by its nibbles. -/
theorem resetState : Obligations.ResetState := by
  unfold Obligations.ResetState
  refine ⟨?_, rfl, ?_, rfl, rfl, rfl⟩
  · intro r cfg env
    obtain ⟨hlo, hhi⟩ := flags_append_zero r.flags
    exact ⟨rfl, ⟨rfl, rfl, rfl, rfl, rfl⟩, rfl, rfl, rfl, rfl, rfl, rfl, rfl, rfl, rfl, rfl, rfl, hlo, hhi, rfl, rfl,
      rfl⟩
  · intro r
    cases r <;> rfl

/-- Settles O23: the low nibble of F is zero, no cell is listed, and there is no record in phase Fetch. -/
theorem invariantAtReset : Obligations.InvariantAtReset := by
  unfold Obligations.InvariantAtReset
  intro r core cfg
  exact ⟨(flags_append_zero r.flags).1, rfl, by simp [State.resetWith]⟩

/-- The two halves of a word are masked one by one. -/
theorem join_and_join (h l h' l' : Byte) : join (h &&& h') (l &&& l') = join h l &&& join h' l' := by
  apply BitVec.eq_of_getLsbD_eq
  intro i hi
  simp only [BitVec.getLsbD_and, getLsbD_join]
  split <;> rfl

/-- AF reads back what was written to it with the low nibble cleared (R23). -/
theorem reg16_setReg16_af (s : State) (w : Word) : (s.setReg16 .af w).reg16 .af = w &&& 0xFFF0 := by
  have hmask : (0xFFF0 : Word) = join (BitVec.allOnes 8) 0xF0 := by decide
  calc (s.setReg16 .af w).reg16 .af = join (hi8 w &&& BitVec.allOnes 8) (lo8 w &&& 0xF0) := by
        rw [BitVec.and_allOnes]; rfl
    _ = w &&& 0xFFF0 := by rw [join_and_join, join_hi_lo, hmask]

/-- Settles O26: the pairs are joins of their halves, and only AF masks what is written to it. -/
theorem pairViewsAndWrites : Obligations.PairViewsAndWrites := by
  unfold Obligations.PairViewsAndWrites
  intro s w
  have views : ∀ h l : Byte, hi8 (join h l) = h ∧ lo8 (join h l) = l := fun h l => ⟨hi8_join h l, lo8_join h l⟩
  exact ⟨views _ _, views _ _, views _ _, views _ _, rfl, rfl, rfl, rfl, fun rr => reg16_setReg16 s rr w,
    reg16_setReg16_af s w, nibble_and_F0 _⟩

/-- The mask of a flag is its bit alone. -/
theorem getLsbD_flagMask (fl : Flag) (i : Nat) : (1#8 <<< fl.pos).getLsbD i = decide (i = fl.pos) := by
  have hp : fl.pos < 8 := by cases fl <;> decide
  calc (1#8 <<< fl.pos).getLsbD i = (BitVec.twoPow 8 fl.pos).getLsbD i := rfl
    _ = decide (i = fl.pos) := by simp only [BitVec.getLsbD_twoPow, hp, decide_true, Bool.true_and, eq_comm]

/-- A setter, bit by bit (R27). -/
theorem getLsbD_setFlag (fl : Flag) (v : Bool) (f : Byte) {i : Nat} (hi : i < 8) :
    (setFlag fl v f).getLsbD i = if i = fl.pos then v else f.getLsbD i := by
  unfold setFlag
  split
  · next hv =>
    rw [BitVec.getLsbD_or, getLsbD_flagMask]
    by_cases h : i = fl.pos <;> simp [h, hv]
  · next hv =>
    rw [BitVec.getLsbD_and, BitVec.getLsbD_not, getLsbD_flagMask]
    by_cases h : i = fl.pos <;> simp [h, hi, hv]

/-- Settles O27: the predicates by their positions, the setters bit by bit. -/
theorem flagPredicatesAndSetters : Obligations.FlagPredicatesAndSetters := by
  unfold Obligations.FlagPredicatesAndSetters
  exact ⟨fun f => ⟨rfl, rfl, rfl, rfl⟩, fun fl v f i hi => getLsbD_setFlag fl v f hi⟩

/-! ## Which instruction writes F, SP or PC -/

/-- The register with a number in a `ddd` or `sss` field (R104). -/
def regOfField (v : BitVec 3) : Reg8 :=
  match kindOfField v with
  | .reg r => r
  | _ => .a

theorem regOfField_field (r : Reg8) : regOfField r.field = r := by cases r <;> rfl

/-- The fields y and z of an instruction's opcode byte (R102). -/
def yField (i : Instr) : BitVec 3 := i.opcode.extractLsb' 3 3
def zField (i : Instr) : BitVec 3 := i.opcode.extractLsb' 0 3

/-! An instruction belongs to a family if it is the family's member that the fields of its opcode byte select. -/

theorem writesCarry_cpR {i : Instr} (h : i = cpR (regOfField (zField i))) : WritesCarry i := .inl ⟨_, .inl h⟩

theorem writesCarry_rlR {i : Instr} (h : i = rlR (regOfField (zField i))) : WritesCarry i := .inl ⟨_, .inr h⟩

theorem writesFlags_incR {i : Instr} (h : i = incR (regOfField (yField i))) : WritesFlags i :=
  .inl ⟨_, .inr (.inl h)⟩

theorem writesFlags_decR {i : Instr} (h : i = decR (regOfField (yField i))) : WritesFlags i :=
  .inl ⟨_, .inr (.inr (.inl h))⟩

theorem writesFlags_bitBR {i : Instr} (h : i = bitBR (yField i) (regOfField (zField i))) : WritesFlags i :=
  .inl ⟨_, .inr (.inr (.inr (.inr ⟨_, h⟩)))⟩

theorem writesFlags_bitBAtHL {i : Instr} (h : i = bitBAtHL (yField i)) : WritesFlags i :=
  .inr (.inr (.inr (.inr (.inr (.inr ⟨_, h⟩)))))

theorem writesSp_pushRr {i : Instr} (pp : BitVec 2) (h : i = pushRr pp) : WritesSp i :=
  .inr (.inr (.inr (.inr ⟨pp, h⟩)))

/-- The carry is one of the flags (R28). -/
theorem WritesCarry.writesFlags {i : Instr} (h : WritesCarry i) : WritesFlags i := by
  obtain ⟨r, h | h⟩ | h | h | h := h
  · exact .inl ⟨r, .inl h⟩
  · exact .inl ⟨r, .inr (.inr (.inr (.inl h)))⟩
  · exact .inr (.inl h)
  · exact .inr (.inr (.inl h))
  · exact .inr (.inr (.inr (.inr (.inr (.inl h)))))

/-- The shared handlers again, with what `IsHandler` does not say: which instruction each is the meaning of, where the
handler can write F, the carry, SP or PC. -/
inductive IsMeaning (i : Instr) (s : State) : Result → Prop where
  | noOperation : IsMeaning i s (noOperation s)
  | ld8 (dst src : Operand8) : IsMeaning i s (ld8 dst src s)
  | ld16 (dst src : Operand16) (haf : dst ≠ .reg16 .af) (hsp : dst = .reg16 .sp → WritesSp i) :
      IsMeaning i s (ld16 dst src s)
  | compareWithA (src : Operand8) (h : WritesCarry i) : IsMeaning i s (compareWithA src s)
  | increment (k : Operand8) (h : WritesFlags i) : IsMeaning i s (increment k s)
  | decrement (k : Operand8) (h : WritesFlags i) : IsMeaning i s (decrement k s)
  | rotateLeft (k : Operand8) (h : WritesCarry i) : IsMeaning i s (rotateLeft k s)
  | bitTest (b : BitVec 3) (k : Operand8) (h : WritesFlags i) : IsMeaning i s (bitTest b k s)
  | increment16 (rr : Reg16) (haf : rr ≠ .af) (hsp : rr = .sp → WritesSp i) : IsMeaning i s (increment16 rr s)
  | decrement16 (rr : Reg16) (haf : rr ≠ .af) (hsp : rr = .sp → WritesSp i) : IsMeaning i s (decrement16 rr s)
  | push (rr : Reg16) (h : WritesSp i) : IsMeaning i s (push rr s)
  | jumpRelative (cc : Cond) (e : Byte) (h : i = jrCc cc e) : IsMeaning i s (jumpRelative cc e s)

theorem isMeaning_cb (i : Instr) (s : State) (h : i.isCb = true) :
    IsMeaning i s (exec i s) ∨ ∃ op cb, i = .unimplemented op cb := by
  cases i
  case unimplemented op cb => exact .inr ⟨op, cb, rfl⟩
  case rl_atHL => exact .inl (.rotateLeft (.ind .hl) (.inr (.inr (.inr rfl))))
  all_goals first
    | exact absurd h Bool.false_ne_true
    | (simp only [exec]; exact .inl (.bitTest _ _ (writesFlags_bitBR rfl)))
    | (simp only [exec]; exact .inl (.bitTest _ _ (writesFlags_bitBAtHL rfl)))
    | (simp only [exec]; exact .inl (.rotateLeft _ (writesCarry_rlR rfl)))

theorem isMeaning_loads (i : Instr) (s : State) (h : i.isCb = false) (ho : i.opcode.toNat / 64 = 1) :
    IsMeaning i s (exec i s) ∨ ∃ op cb, i = .unimplemented op cb := by
  cases i
  case unimplemented op cb => exact .inr ⟨op, cb, rfl⟩
  all_goals first
    | exact absurd h.symm Bool.false_ne_true
    | (simp [Instr.opcode] at ho; done)
    | (simp only [exec]; exact .inl (.ld8 _ _))

theorem isMeaning_others (i : Instr) (s : State) (h : i.isCb = false) (ho : i.opcode.toNat / 64 ≠ 1) :
    IsMeaning i s (exec i s) ∨ i = .prefix_CB ∨ ∃ op cb, i = .unimplemented op cb := by
  cases i
  case unimplemented op cb => exact .inr (.inr ⟨op, cb, rfl⟩)
  case prefix_CB => exact .inr (.inl rfl)
  case nop => exact .inl .noOperation
  case cp_atHL => exact .inl (.compareWithA (.ind .hl) (.inr (.inl rfl)))
  case cp_n n => exact .inl (.compareWithA (.imm8 n) (.inr (.inr (.inl ⟨n, rfl⟩))))
  case inc_atHL => exact .inl (.increment (.ind .hl) (.inr (.inr (.inr (.inl rfl)))))
  case dec_atHL => exact .inl (.decrement (.ind .hl) (.inr (.inr (.inr (.inr (.inl rfl))))))
  case ld_SP_nn nn => exact .inl (.ld16 (.reg16 .sp) (.imm16 nn) nofun fun _ => .inl ⟨nn, rfl⟩)
  case ld_SP_HL => exact .inl (.ld16 (.reg16 .sp) (.reg16 .hl) nofun fun _ => .inr (.inl rfl))
  case inc_SP => exact .inl (.increment16 .sp nofun fun _ => .inr (.inr (.inl rfl)))
  case dec_SP => exact .inl (.decrement16 .sp nofun fun _ => .inr (.inr (.inr (.inl rfl))))
  case push_BC => exact .inl (.push .bc (writesSp_pushRr 0 rfl))
  case push_DE => exact .inl (.push .de (writesSp_pushRr 1 rfl))
  case push_HL => exact .inl (.push .hl (writesSp_pushRr 2 rfl))
  case push_AF => exact .inl (.push .af (writesSp_pushRr 3 rfl))
  all_goals first
    | exact absurd h.symm Bool.false_ne_true
    | exact (ho rfl).elim
    | (simp only [exec]; exact .inl (.ld8 _ _))
    | (simp only [exec]; exact .inl (.compareWithA _ (writesCarry_cpR rfl)))
    | (simp only [exec]; exact .inl (.increment _ (writesFlags_incR rfl)))
    | (simp only [exec]; exact .inl (.decrement _ (writesFlags_decR rfl)))
    | (simp only [exec]; refine .inl (.ld16 _ _ ?_ ?_) <;> nofun)
    | (simp only [exec]; refine .inl (.increment16 _ ?_ ?_) <;> nofun)
    | (simp only [exec]; refine .inl (.decrement16 _ ?_ ?_) <;> nofun)
    | (simp only [exec]; exact .inl (.jumpRelative _ _ rfl))

/-- The one case split over the instructions that a proof about the writers of a register needs. -/
theorem exec_isMeaning (i : Instr) (s : State) :
    IsMeaning i s (exec i s) ∨ i = .prefix_CB ∨ ∃ op cb, i = .unimplemented op cb := by
  cases hc : i.isCb with
  | true => exact (isMeaning_cb i s hc).imp_right .inr
  | false =>
    by_cases ho : i.opcode.toNat / 64 = 1
    · exact (isMeaning_loads i s hc ho).imp_right .inr
    · exact isMeaning_others i s hc ho

/-! ## What a handler does to F, SP and PC -/

/-- A read-modify-write handler writes F as its computation does, and neither SP nor PC. -/
theorem modify_frame {op : Byte → Byte → Byte × Byte} {k : Operand8} {s t : State} (h : modify op k s = .next t) :
    t.f = (op (k.read s).1 s.f).2 ∧ t.sp = s.sp ∧ t.pc = s.pc := by
  obtain ⟨u, hw, rfl⟩ := modify_next h
  obtain ⟨hf, hpc, hsp, -⟩ := Operand8.write_next hw
  exact ⟨hf, hsp.trans (k.read_sp s), hpc.trans (k.read_pc s)⟩

/-- A load of a byte writes neither F nor SP nor PC. -/
theorem ld8_frame {dst src : Operand8} {s t : State} (h : ld8 dst src s = .next t) :
    t.f = s.f ∧ t.sp = s.sp ∧ t.pc = s.pc := by
  obtain ⟨u, hw, rfl⟩ := ld8_next h
  obtain ⟨hf, hpc, hsp, -⟩ := Operand8.write_next hw
  exact ⟨hf.trans (src.read_f s), hsp.trans (src.read_sp s), hpc.trans (src.read_pc s)⟩

theorem setReg16_f (s : State) {rr : Reg16} (h : rr ≠ .af) (w : Word) : (s.setReg16 rr w).f = s.f := by
  cases rr <;> first | rfl | contradiction

theorem setReg16_sp (s : State) {rr : Reg16} (h : rr ≠ .sp) (w : Word) : (s.setReg16 rr w).sp = s.sp := by
  cases rr <;> first | rfl | contradiction

theorem Operand16.write_sp {k : Operand16} {w : Word} {s t : State} (hk : k ≠ .reg16 .sp) (h : k.write w s = .next t) :
    t.sp = s.sp := by
  cases k <;> cases h
  case reg16 rr => exact setReg16_sp s (fun e => hk (e ▸ rfl)) w
  case direct16 => rfl

/-- A load of a word writes F or SP only where its destination is AF or SP, and never PC. -/
theorem ld16_frame {dst src : Operand16} {s t : State} (h : ld16 dst src s = .next t) :
    (dst ≠ .reg16 .af → t.f = s.f) ∧ (dst ≠ .reg16 .sp → t.sp = s.sp) ∧ t.pc = s.pc := by
  obtain ⟨u, hw, rfl⟩ := ld16_next h
  obtain ⟨hpc, -, -, -, -, -, hf, -⟩ := Operand16.write_next hw
  exact ⟨fun hd => (hf hd).trans (src.read_f s), fun hd => (Operand16.write_sp hd hw).trans (src.read_sp s),
    hpc.trans (src.read_pc s)⟩

/-- What an instruction that is not in the family of R28 or R31, or no JR, keeps. -/
structure Spares (i : Instr) (s t : State) : Prop where
  f : ¬WritesFlags i → t.f = s.f
  carry : ¬WritesCarry i → getFlag .c t.f = getFlag .c s.f
  sp : ¬WritesSp i → t.sp = s.sp
  pc : (∀ cc e, i ≠ jrCc cc e) → t.pc = s.pc

/-- A change of F that keeps the carry, by an instruction that writes flags. -/
theorem Spares.of_flags {i : Instr} {s t : State} (h : WritesFlags i) (hc : getFlag .c t.f = getFlag .c s.f)
    (hsp : t.sp = s.sp) (hpc : t.pc = s.pc) : Spares i s t :=
  ⟨absurd h, fun _ => hc, fun _ => hsp, fun _ => hpc⟩

theorem Spares.of_carry {i : Instr} {s t : State} (h : WritesCarry i) (hsp : t.sp = s.sp) (hpc : t.pc = s.pc) :
    Spares i s t :=
  ⟨absurd h.writesFlags, absurd h, fun _ => hsp, fun _ => hpc⟩

theorem Spares.of_f {i : Instr} {s t : State} (hf : t.f = s.f) (hsp : ¬WritesSp i → t.sp = s.sp)
    (hpc : (∀ cc e, i ≠ jrCc cc e) → t.pc = s.pc) : Spares i s t :=
  ⟨fun _ => hf, fun _ => by rw [hf], hsp, hpc⟩

theorem IsMeaning.spares {i : Instr} {s t : State} {r : Result} (h : IsMeaning i s r) (hr : r = .next t) :
    Spares i s t := by
  cases h with
  | noOperation => cases hr; exact .of_f rfl (fun _ => rfl) fun _ => rfl
  | ld8 dst src =>
    obtain ⟨hf, hsp, hpc⟩ := ld8_frame hr
    exact .of_f hf (fun _ => hsp) fun _ => hpc
  | ld16 dst src haf hsp =>
    obtain ⟨hf, hs, hpc⟩ := ld16_frame hr
    exact .of_f (hf haf) (fun hn => hs fun e => hn (hsp e)) fun _ => hpc
  | compareWithA src h => cases hr; exact .of_carry h (src.read_sp s) (src.read_pc s)
  | increment k h =>
    obtain ⟨hf, hsp, hpc⟩ := modify_frame hr
    exact .of_flags h (by rw [hf, inc8_flag]) hsp hpc
  | decrement k h =>
    obtain ⟨hf, hsp, hpc⟩ := modify_frame hr
    exact .of_flags h (by rw [hf, dec8_flag]) hsp hpc
  | rotateLeft k h =>
    obtain ⟨-, hsp, hpc⟩ := modify_frame hr
    exact .of_carry h hsp hpc
  | bitTest b k h =>
    cases hr
    exact .of_flags h (by simp [bitFlags_flag]) (k.read_sp s) (k.read_pc s)
  | increment16 rr haf hsp | decrement16 rr haf hsp =>
    cases hr
    exact .of_f (setReg16_f s haf _) (fun hn => setReg16_sp s (fun e => hn (hsp e)) _) fun _ => by simp
  | push rr h => cases hr; exact .of_f rfl (absurd h) fun _ => rfl
  | jumpRelative cc e h =>
    cases hr
    refine .of_f ?_ (fun _ => ?_) fun hn => absurd h (hn cc e)
    all_goals split <;> rfl

/-- What a meaning that answers keeps; PREFIX CB alone moves PC as well, past the byte it latches. -/
theorem exec_spares {i : Instr} {s t : State} (hi : i ≠ .prefix_CB) (h : exec i s = .next t) : Spares i s t := by
  obtain hm | rfl | ⟨op, cb, rfl⟩ := exec_isMeaning i s
  · exact hm.spares h
  · exact absurd rfl hi
  · cases h

/-- Settles O52: the families of R28 are where a handler that changes F, or the carry, is the meaning. -/
theorem flagsWrittenOnlyByFlagInstructions : Obligations.FlagsWrittenOnlyByFlagInstructions := by
  unfold Obligations.FlagsWrittenOnlyByFlagInstructions
  intro i s t h
  by_cases hi : i = .prefix_CB
  · subst hi
    cases h
    exact ⟨fun _ => rfl, fun _ => rfl⟩
  · have hs := exec_spares hi h
    exact ⟨hs.f, hs.carry⟩

/-- Settles O53: the family of R31 is where a handler that changes SP is the meaning. -/
theorem stackPointerWriters : Obligations.StackPointerWriters := by
  unfold Obligations.StackPointerWriters
  intro i s t h
  by_cases hi : i = .prefix_CB
  · subst hi
    cases h
    exact fun _ => rfl
  · exact (exec_spares hi h).sp

/-! ## The bytes of an instruction, from the stream to its meaning -/

/-- The state after these bytes are taken from the stream: PC past them, the reads made and recorded (R13). -/
def State.afterBytes (s : State) (bytes : List Byte) : State :=
  { s with
    pc := s.pc + BitVec.ofNat 16 bytes.length
    env := readAll s.env (addrsFrom s.pc bytes.length)
    bus := s.bus ++ readEvents s.pc bytes }

theorem afterBytes_nil (s : State) : s.afterBytes [] = s := by
  simp [State.afterBytes, readAll, addrsFrom, readEvents]

theorem imm8_eq {s : State} {n : Byte} (h : bytesAt s.env s.pc 1 = [n]) : imm8 s = (n, s.afterBytes [n]) := by
  obtain rfl : s.env.peek s.pc = n := List.head_eq_of_cons_eq h
  rfl

/-- The address past one byte and `n` more. -/
theorem add_one_add_ofNat (a : Addr) (n : Nat) : a + 1#16 + BitVec.ofNat 16 n = a + BitVec.ofNat 16 (n + 1) := by
  rw [BitVec.ofNat_add, BitVec.add_assoc, BitVec.add_comm 1#16]

/-- One byte more. -/
theorem afterBytes_cons (s : State) (n : Byte) (bytes : List Byte) :
    (s.afterBytes [n]).afterBytes bytes = s.afterBytes (n :: bytes) := by
  simp [State.afterBytes, readAll, addrsFrom, readEvents, add_one_add_ofNat]

theorem imm16_eq {s : State} {nn : Word} (h : bytesAt s.env s.pc 2 = [lo8 nn, hi8 nn]) :
    imm16 s = (nn, s.afterBytes [lo8 nn, hi8 nn]) := by
  have hlo : imm8 s = (lo8 nn, s.afterBytes [lo8 nn]) := imm8_eq (congrArg (List.take 1) h)
  have hhi : imm8 (s.afterBytes [lo8 nn]) = (hi8 nn, (s.afterBytes [lo8 nn]).afterBytes [hi8 nn]) :=
    imm8_eq (congrArg (List.drop 1) h)
  simp only [imm16, hlo, hhi, join_hi_lo, afterBytes_cons]

/-- The opcode tables give an instruction back for its own pair and immediates (R110, R111). -/
theorem tableEntry_of_instr (i : Instr) (hu : ∀ op cb, i ≠ .unimplemented op cb) :
    tableEntry i.isCb i.opcode = .plain i ∨
      (∃ f, tableEntry i.isCb i.opcode = .imm8 f ∧ ∃ n, f n = i) ∨
      ∃ f, tableEntry i.isCb i.opcode = .imm16 f ∧ ∃ nn, f nn = i := by
  cases i
  case unimplemented op cb => exact absurd rfl (hu op cb)
  all_goals
    dsimp only [Instr.isCb, Instr.opcode]
    first
    | exact .inl rfl
    | (refine .inr (.inl ⟨_, rfl, ?_⟩); exact ⟨_, rfl⟩)
    | (refine .inr (.inr ⟨_, rfl, ?_⟩); exact ⟨_, rfl⟩)

theorem hasHandler_of_wellFormedIn {m : Implemented} {i : Instr} (hw : i.wellFormedIn m = true)
    (hu : ∀ op cb, i ≠ .unimplemented op cb) : hasHandler m i.opcode i.isCb = true := by
  simp only [Instr.wellFormedIn, Bool.and_eq_true] at hw
  exact hw.2

/-- A CB-table pair is reached through PREFIX CB, which has a handler (R146). -/
theorem prefix_CB_wellFormedIn {m : Implemented} {i : Instr} (hw : i.wellFormedIn m = true) (hc : i.isCb = true) :
    Instr.prefix_CB.wellFormedIn m = true := by
  simp only [Instr.wellFormedIn, Bool.and_eq_true, hc, Bool.not_true, Bool.false_or] at hw
  exact hw.1

/-- Decode takes back a well-formed instruction whose pair is latched and whose immediate bytes stand at PC (R109,
R142). -/
theorem takeOperands_eq {s : State} {i : Instr} (hw : i.wellFormedIn s.cfg.implemented = true) (hcb : s.cb = i.isCb)
    (hop : s.opcode = i.opcode) (him : bytesAt s.env s.pc i.immediates.length = i.immediates) :
    takeOperands s = (i, s.afterBytes i.immediates) := by
  unfold takeOperands
  by_cases hu : ∃ op cb, i = .unimplemented op cb
  · obtain ⟨op, cb, rfl⟩ := hu
    have hn : hasHandler s.cfg.implemented s.opcode s.cb = false := by
      rw [hop, hcb]
      simp only [Instr.wellFormedIn, Bool.and_eq_true, Bool.not_eq_true'] at hw
      exact hw.2
    rw [entryIn_of_not_hasHandler hn, hop, hcb]
    exact congrArg _ (afterBytes_nil s).symm
  · have hu' : ∀ op cb, i ≠ .unimplemented op cb := fun op cb e => hu ⟨op, cb, e⟩
    rw [hcb, hop, entryIn_of_hasHandler (hasHandler_of_wellFormedIn hw hu')]
    have hok := tableEntry_ok i.isCb i.opcode
    obtain he | ⟨f, he, n, rfl⟩ | ⟨f, he, nn, rfl⟩ := tableEntry_of_instr i hu' <;> rw [he] at hok ⊢
    · obtain ⟨-, -, -, himm, -⟩ := hok
      rw [himm, afterBytes_nil]
    · obtain ⟨-, -, hf⟩ := hok
      obtain ⟨-, -, himm, -⟩ := hf n
      rw [himm] at him ⊢
      simp only [imm8_eq him]
    · obtain ⟨-, -, hf⟩ := hok
      obtain ⟨-, -, himm, -⟩ := hf nn
      rw [himm] at him ⊢
      simp only [imm16_eq him]

theorem encode_base {i : Instr} (hc : i.isCb = false) : encode i = i.opcode :: i.immediates := by
  simp [encode, hc]

theorem encode_cb {i : Instr} (hc : i.isCb = true) : encode i = 0xCB :: i.opcode :: i.immediates := by
  simp [encode, hc]

/-- All bytes of a base-table instruction: the opcode byte, then the immediates. -/
theorem afterFetch_base {i : Instr} {s : State} (hc : i.isCb = false) (hop : s.env.peek s.pc = i.opcode) :
    afterFetch i s = (fetch s).afterBytes i.immediates := by
  simp [afterFetch, State.afterBytes, encode_base hc, hc, ← hop, fetch, memRead, readAll, addrsFrom, readEvents,
    add_one_add_ofNat]

/-- All bytes of a CB-table instruction: 0xCB, the opcode byte, then the immediates. -/
theorem afterFetch_cb {i : Instr} {s : State} (hc : i.isCb = true) (hcb : s.env.peek s.pc = 0xCB)
    (hop : (fetch s).env.peek (fetch s).pc = i.opcode) :
    afterFetch i s = (fetchCb (fetch s)).afterBytes i.immediates := by
  have hop' : (s.env.afterRead s.pc).peek (s.pc + 1) = i.opcode := hop
  have hpc (n : Nat) : s.pc + 1#16 + 1#16 + BitVec.ofNat 16 n = s.pc + BitVec.ofNat 16 (n + 1 + 1) :=
    (add_one_add_ofNat (s.pc + 1#16) n).trans (add_one_add_ofNat s.pc (n + 1))
  simp [afterFetch, State.afterBytes, encode_cb hc, hc, ← hop', ← hcb, fetch, fetchCb, memRead, readAll, addrsFrom,
    readEvents, hpc]

/-- From a fetch of an instruction on, Decode finds its meaning in the state after all its bytes (R141, R142, R146). -/
theorem decodeAndExecute_fetch {i : Instr} {s : State} (h : Fetches i s) (hi : i ≠ .prefix_CB) :
    decodeAndExecute (fetch s) = exec i (afterFetch i s) := by
  obtain ⟨-, -, hw, hb⟩ := h
  cases hc : i.isCb with
  | false =>
    rw [encode_base hc] at hb
    obtain ⟨hop, him⟩ := List.cons.inj hb
    have ht : takeOperands (fetch s) = (i, afterFetch i s) := by
      rw [afterFetch_base hc hop]
      exact takeOperands_eq hw hc.symm hop him
    obtain ⟨-, e⟩ | ⟨e, -⟩ := decodeAndExecute_cases (fetch s)
    · rw [e, ht]
    · rw [ht] at e
      exact absurd e hi
  | true =>
    rw [encode_cb hc] at hb
    obtain ⟨hcb, hb'⟩ := List.cons.inj hb
    obtain ⟨hop, him⟩ := List.cons.inj hb'
    have hpre : takeOperands (fetch s) = (.prefix_CB, fetch s) := by
      rw [takeOperands_eq (s := fetch s) (prefix_CB_wellFormedIn hw hc) rfl hcb rfl]
      exact congrArg _ (afterBytes_nil _)
    have ht : takeOperands (fetchCb (fetch s)) = (i, afterFetch i s) := by
      rw [afterFetch_cb hc hcb hop]
      exact takeOperands_eq hw hc.symm hop him
    obtain ⟨e, -⟩ | ⟨-, e⟩ := decodeAndExecute_cases (fetch s)
    · rw [hpre] at e
      exact absurd rfl e
    · rw [e, hpre, runDecoded, ht]

/-- A step that fetches an instruction is its meaning after its bytes (R145). -/
theorem step_fetches {i : Instr} {s : State} (h : Fetches i s) (hi : i ≠ .prefix_CB) :
    step s = exec i (afterFetch i s) := by
  obtain ⟨hp, ha, -, -⟩ := id h
  simp only [step, hp, ifAccepted, ha, if_true]
  exact decodeAndExecute_fetch h hi

/-- Settles O54: the fetch leaves PC past the instruction's bytes, and the meaning of an instruction that is no JR keeps
it there. -/
theorem programCounterAdvance : Obligations.ProgramCounterAdvance := by
  unfold Obligations.ProgramCounterAdvance
  intro i s t h hi ht hj
  rw [step_fetches h hi] at ht
  exact (exec_spares hi ht).pc hj

end Sys2Proof.Machine

/-! The family of 20_memory.md: what `RefBus` and `FlatBus` read and write (O15, O16, O18, O19), what the recorded bus
events say of the environment (O20), what follows from them for the boot latch (O17) and for the next fetch (O55), and
one bus access a controller call (O56). That each operation of the model records what it does on the bus (`Records`) is
proved once, from one access up to the step; the latch and the store are then facts about a list of events that happened
(`Happened`). -/

namespace Sys2Proof.Machine

/-! ## The address map -/

/-- Working RAM (R67, R70). -/
theorem Env.ramCell_wram {e : Env} {a : Addr} (hb : e.cfg.bus = .ref) (hlo : 0xC000 ≤ a.toNat)
    (hhi : a.toNat ≤ 0xFDFF) : e.ramCell a = some (wramCell e.cfg a.toNat) := by
  simp [Env.ramCell, hb, hlo, hhi]

/-- High RAM (R67, R70). -/
theorem Env.ramCell_hram {e : Env} {a : Addr} (hb : e.cfg.bus = .ref) (hlo : 0xFF80 ≤ a.toNat)
    (hhi : a.toNat ≤ 0xFFFE) : e.ramCell a = some a.toNat := by
  have hw : ¬a.toNat ≤ 0xFDFF := by omega
  simp [Env.ramCell, hb, hlo, hhi, hw]

theorem Env.ramCell_ref_none {e : Env} {a : Addr} (hb : e.cfg.bus = .ref)
    (hw : ¬(0xC000 ≤ a.toNat ∧ a.toNat ≤ 0xFDFF)) (hh : ¬(0xFF80 ≤ a.toNat ∧ a.toNat ≤ 0xFFFE)) :
    e.ramCell a = none := by
  simp only [Env.ramCell, hb, hw, hh, if_false]

theorem Env.ramCell_flat {e : Env} (hb : e.cfg.bus = .flat) (a : Addr) : e.ramCell a = some a.toNat := by
  simp [Env.ramCell, hb]

/-- Without aliasing the cell behind an address is the address. -/
theorem Env.ramCell_eq_toNat {e : Env} (hm : e.cfg.bus = .ref → e.cfg.wramMirror = false) {a : Addr} {k : Nat}
    (h : e.ramCell a = some k) : k = a.toNat := by
  cases hb : e.cfg.bus with
  | external => simp [Env.ramCell_external hb] at h
  | flat => simpa [Env.ramCell_flat hb, eq_comm] using h
  | ref =>
    simp only [Env.ramCell, hb, wramCell, hm hb, Bool.false_eq_true, if_false] at h
    split at h
    · exact (Option.some.inj h).symm
    · split at h
      · exact (Option.some.inj h).symm
      · cases h

/-- The overlay answers no address that RAM backs. -/
theorem Env.overlaid_of_ramCell {e : Env} {a : Addr} {k : Nat} (h : e.ramCell a = some k) : e.overlaid a = false := by
  by_contra ho
  simp [Env.ramCell_overlaid (Bool.eq_true_of_not_eq_false ho)] at h

/-- An address that RAM backs reads its cell. -/
theorem Env.peek_ram {e : Env} {a : Addr} {k : Nat} (h : e.ramCell a = some k) : e.peek a = e.mem.get k := by
  simp [Env.peek, Env.not_external h, Env.overlaid_of_ramCell h, h]

/-- An address that neither the overlay nor RAM answers reads 0xFF (R69). -/
theorem Env.peek_unmapped {e : Env} {a : Addr} (hx : e.cfg.bus ≠ .external) (ho : e.overlaid a = false)
    (hk : e.ramCell a = none) : e.peek a = 0xFF := by
  simp [Env.peek, hx, ho, hk]

/-- The latch is cleared at 0xFF50 alone, which no RAM backs (R68). -/
theorem Env.disablesBoot_iff {e : Env} {a : Addr} {v : Byte} : e.disablesBoot a v = true ↔
    e.cfg.bus = .ref ∧ a = 0xFF50#16 ∧ e.cfg.bootDisableOn.getLsbD v.toNat = true := by
  simp [Env.disablesBoot, and_assoc]

theorem Env.ramCell_FF50 {e : Env} (hb : e.cfg.bus = .ref) : e.ramCell 0xFF50 = none :=
  Env.ramCell_ref_none hb (by decide) (by decide)

/-- Under `RefBus` a write that no RAM takes acts on the latch, or is dropped. -/
theorem Env.write_no_ram {e : Env} {a : Addr} (hb : e.cfg.bus = .ref) (hk : e.ramCell a = none) (v : Byte) :
    e.write a v = if e.disablesBoot a v then { e with bootEn := false } else e := by
  simp [Env.write, hb, hk]

theorem Env.write_dropped {e : Env} {a : Addr} (hb : e.cfg.bus = .ref) (hk : e.ramCell a = none) (ha : a ≠ 0xFF50#16)
    (v : Byte) : e.write a v = e := by
  have hd : ¬e.disablesBoot a v = true := fun h => ha (Env.disablesBoot_iff.mp h).2.1
  rw [Env.write_no_ram hb hk, if_neg hd]

/-- Where no two addresses share a cell, a store is seen at its own address and at no other. -/
theorem Env.peek_write_ram {e : Env} (hwf : e.mem.wf = true) (hm : e.cfg.bus = .ref → e.cfg.wramMirror = false)
    {a : Addr} {k : Nat} (ha : e.ramCell a = some k) (v : Byte) (b : Addr) :
    (e.write a v).peek b = if b = a then v else e.peek b := by
  split
  · next h => exact Env.peek_write_same hwf v ha (h ▸ ha)
  · next h =>
    refine e.peek_write_other a v b (Env.not_external ha) (fun _ hab => h ?_) fun hd => ?_
    · rw [ha] at hab
      exact BitVec.eq_of_toNat_eq ((Env.ramCell_eq_toNat hm hab).symm.trans (Env.ramCell_eq_toNat hm ha))
    · obtain ⟨hb, rfl, -⟩ := Env.disablesBoot_iff.mp hd
      cases ha.symm.trans (Env.ramCell_FF50 hb)

/-- Settles O15: the three ranges, by what answers a read of each. -/
theorem refBusReads : Obligations.RefBusReads := by
  unfold Obligations.RefBusReads
  intro e a hb
  have hx : e.cfg.bus ≠ .external := by rw [hb]; nofun
  refine ⟨fun ha hl => ?_, fun rom hr ha hl => ?_, fun hlo hhi => ?_, fun hlo hhi => ?_, ?_⟩
  · exact Env.peek_unmapped hx (by simp [Env.overlaid, hl]) (Env.ramCell_ref_none hb (by omega) (by omega))
  · simp [Env.peek, Env.overlaid, Env.overlayByte, hb, hl, ha, hr]
  · rw [Env.peek_ram (Env.ramCell_wram hb hlo hhi), wramCell]
  · exact Env.peek_ram (Env.ramCell_hram hb hlo hhi)
  · exact Env.afterRead_of_not_external hx a

/-- Settles O18: under `FlatBus` the cell behind an address is the address. -/
theorem flatBusCells : Obligations.FlatBusCells := by
  unfold Obligations.FlatBusCells
  intro e a b v hb hwf
  have hk : e.ramCell a = some a.toNat := Env.ramCell_flat hb a
  refine ⟨Env.peek_ram hk, ?_, ?_, ?_, e.write_cfg a v⟩
  · exact Env.afterRead_of_not_external (Env.not_external hk) a
  · exact Env.peek_write_ram hwf (by rw [hb]; nofun) hk v b
  · simp [Env.write_bootEn, hk]

/-- Settles O19: both RAM ranges have a cell for each address, and without aliasing no two addresses share one. -/
theorem ramReadsBackWrites : Obligations.RamReadsBackWrites := by
  unfold Obligations.RamReadsBackWrites
  intro e a b v hb hm hwf ha
  obtain ⟨hlo, hhi⟩ | ⟨hlo, hhi⟩ := ha
  · exact Env.peek_write_ram hwf (fun _ => hm) (Env.ramCell_wram hb hlo hhi) v b
  · exact Env.peek_write_ram hwf (fun _ => hm) (Env.ramCell_hram hb hlo hhi) v b

/-! ## A fetch of a byte without a handler -/

/-- A step that fetches an opcode byte without a handler faults with the byte and its address (R331, R335). -/
theorem step_fetch_unimplemented {s : State} (hp : s.phase = .fetch) (ha : s.env.cfg.accepted = true)
    (hn : hasHandler s.cfg.implemented (s.env.peek s.pc) false = false) :
    step s = raiseUnimplemented (s.env.peek s.pc) false (fetch s) := by
  have ht : takeOperands (fetch s) = (.unimplemented (s.env.peek s.pc) false, fetch s) := by
    have he : entryIn (fetch s).cfg.implemented (fetch s).cb (fetch s).opcode = .absent :=
      entryIn_of_not_hasHandler hn
    unfold takeOperands
    rw [he]
    rfl
  have hd : decodeAndExecute (fetch s) = raiseUnimplemented (s.env.peek s.pc) false (fetch s) := by
    obtain ⟨-, e⟩ | ⟨e, -⟩ := decodeAndExecute_cases (fetch s)
    · rw [e, ht]; rfl
    · rw [ht] at e; cases e
  simp only [step, hp, ifAccepted, ha, if_true, hd]

/-- Settles O16: no RAM and no overlay answers there, and 0xFF has no handler under any `Implemented`. -/
theorem unmappedAddresses : Obligations.UnmappedAddresses := by
  unfold Obligations.UnmappedAddresses
  intro e a hb ha
  have hx : e.cfg.bus ≠ .external := by rw [hb]; nofun
  have hk : e.ramCell a = none := Env.ramCell_ref_none hb (by omega) (by omega)
  have ho : e.overlaid a = false := by
    have hr : ¬a.toNat ≤ 0x00FF := by omega
    simp [Env.overlaid, hr]
  have h50 : a ≠ 0xFF50#16 := by rintro rfl; simp at ha
  have hpk : e.peek a = 0xFF := Env.peek_unmapped hx ho hk
  refine ⟨hpk, Env.write_dropped hb hk h50, ?_⟩
  rintro s hp rfl hrom rfl
  have hacc : s.env.cfg.accepted = true := by
    by_contra h
    exact hrom (accepted_eq_false.mp (Bool.eq_false_of_not_eq_true h)).2
  have hn : hasHandler s.cfg.implemented (s.env.peek s.pc) false = false := by
    have himp : implemented 0xFF false = false := by decide
    rw [hpk, hasHandler, himp, Bool.and_false]
  refine ⟨_, step_fetch_unimplemented hp hacc hn, ?_⟩
  rw [enterFault_fault, hpk, fetch_fetchAddr]

/-! ## Events that happened -/

/-- One list of events after another. -/
theorem happened_append {xs ys : List BusEvent} : ∀ {e e'' : Env},
    Happened e (xs ++ ys) e'' ↔ ∃ e', Happened e xs e' ∧ Happened e' ys e'' := by
  induction xs with
  | nil => simp [Happened]
  | cons x xs ih =>
    intro e e''
    cases x with
    | rd a v => simp only [List.cons_append, Happened, ih]; tauto
    | wr a v => simp only [List.cons_append, Happened, ih]

/-- What every read and each of the listed writes keeps is kept. -/
theorem Happened.keeps {P : Env → Prop} (hr : ∀ e a, P e → P (e.afterRead a)) {evs : List BusEvent} :
    ∀ {e e' : Env}, Happened e evs e' → (∀ e a v, .wr a v ∈ evs → P e → P (e.write a v)) → P e → P e' := by
  induction evs with
  | nil => rintro e _ rfl _ hP; exact hP
  | cons ev evs ih =>
    intro e e' h hw hP
    have hw' : ∀ e a v, .wr a v ∈ evs → P e → P (e.write a v) := fun e a v hm => hw e a v (.tail _ hm)
    cases ev with
    | rd a v => exact ih h.2 hw' (hr e a hP)
    | wr a v => exact ih h hw' (hw e a v (.head _) hP)

theorem Happened.cfg_eq {evs : List BusEvent} {e e' : Env} (h : Happened e evs e') : e'.cfg = e.cfg :=
  h.keeps (P := fun x => x.cfg = e.cfg) (fun x a hx => by rw [x.afterRead_cfg, hx])
    (fun x a v _ hx => by rw [x.write_cfg, hx]) rfl

/-- The configuration says which cell backs an address. -/
theorem Env.ramCell_congr {e x : Env} (h : x.cfg = e.cfg) (a : Addr) : x.ramCell a = e.ramCell a := by
  simp only [Env.ramCell, h]

theorem Happened.ramCell_eq {evs : List BusEvent} {e e' : Env} (h : Happened e evs e') (a : Addr) :
    e'.ramCell a = e.ramCell a :=
  Env.ramCell_congr h.cfg_eq a

theorem Happened.wf {evs : List BusEvent} {e e' : Env} (h : Happened e evs e') (hwf : e.mem.wf = true) :
    e'.mem.wf = true :=
  h.keeps (P := fun x => x.mem.wf = true) (fun x a hx => by rw [x.afterRead_mem, hx])
    (fun x a v _ hx => Env.write_wf hx a v) hwf

/-- No event sets the latch (R68). -/
theorem Happened.latch_stays_clear {evs : List BusEvent} {e e' : Env} (h : Happened e evs e')
    (hl : e.bootEn = false) : e'.bootEn = false :=
  h.keeps (P := fun x => x.bootEn = false) (fun x a hx => by rw [x.afterRead_bootEn, hx])
    (fun x a v _ hx => by rw [x.write_bootEn, hx, Bool.false_and]) hl

/-- Events without a write to 0xFF50 leave the latch set (R68). -/
theorem Happened.latch_stays_set {evs : List BusEvent} {e e' : Env} (h : Happened e evs e')
    (hn : ∀ v, .wr 0xFF50 v ∉ evs) (hl : e.bootEn = true) : e'.bootEn = true := by
  refine h.keeps (P := fun x => x.bootEn = true) (fun x a hx => by rw [x.afterRead_bootEn, hx]) ?_ hl
  intro x a v hm hx
  have hd : x.disablesBoot a v = false := by
    by_contra hd
    obtain ⟨-, rfl, -⟩ := Env.disablesBoot_iff.mp (Bool.eq_true_of_not_eq_false hd)
    exact hn v hm
  simp [x.write_bootEn, hx, hd]

/-- Events that write nothing into an address's RAM cell leave what the address reads as. -/
theorem Happened.peek_ram_eq {evs : List BusEvent} {e e' : Env} (h : Happened e evs e') {a : Addr}
    (ha : e.ramCell a ≠ none) (hn : ∀ w v, .wr w v ∈ evs → e.ramCell w ≠ e.ramCell a) : e'.peek a = e.peek a := by
  obtain ⟨k, hk⟩ := Option.ne_none_iff_exists'.mp ha
  refine (h.keeps (P := fun x => x.cfg = e.cfg ∧ x.peek a = e.peek a) ?_ ?_ ⟨rfl, rfl⟩).2
  · rintro x b ⟨hc, hp⟩
    have hx : x.cfg.bus ≠ .external := Env.not_external ((Env.ramCell_congr hc a).trans hk)
    rw [Env.afterRead_of_not_external hx]
    exact ⟨hc, hp⟩
  · rintro x w v hm ⟨hc, hp⟩
    have hxa : x.ramCell a = some k := (Env.ramCell_congr hc a).trans hk
    have hcells : x.ramCell a ≠ x.ramCell w := by
      rw [Env.ramCell_congr hc, Env.ramCell_congr hc]
      exact (hn w v hm).symm
    have hkeep : (x.write w v).peek a = x.peek a :=
      x.peek_write_other w v a (Env.not_external hxa) (fun _ => hcells) fun _ => Env.overlaid_of_ramCell hxa
    exact ⟨(x.write_cfg w v).trans hc, hkeep.trans hp⟩

/-- The last write of a list into an address's RAM cell is what the address reads as afterwards (R74). -/
theorem Happened.peek_last_write {before after : List BusEvent} {e e' : Env} {w a : Addr} {v : Byte}
    (h : Happened e (before ++ .wr w v :: after) e') (hwf : e.mem.wf = true) (ha : e'.ramCell a ≠ none)
    (hw : e'.ramCell w = e'.ramCell a) (hn : ∀ w' v', .wr w' v' ∈ after → e'.ramCell w' ≠ e'.ramCell a) :
    e'.peek a = v := by
  obtain ⟨x, hx, hxw : Happened (x.write w v) after e'⟩ := happened_append.mp h
  have hcell (b : Addr) : e'.ramCell b = x.ramCell b := (hxw.ramCell_eq b).trans (x.write_ramCell w v b)
  obtain ⟨k, hk⟩ := Option.ne_none_iff_exists'.mp ha
  have hka : x.ramCell a = some k := (hcell a).symm.trans hk
  have hkw : x.ramCell w = some k := (hcell w).symm.trans (hw.trans hk)
  calc e'.peek a = (x.write w v).peek a := hxw.peek_ram_eq (by simp [hka]) fun w' v' hm => by
        simpa [hcell] using hn w' v' hm
    _ = v := Env.peek_write_same (hx.wf hwf) v hkw hka

/-! ## What an operation does on the bus it records -/

/-- The way from one state to another is recorded: the events added are what happened to the environment (R79). -/
def Records (s t : State) : Prop := ∃ evs, t.bus = s.bus ++ evs ∧ Happened s.env evs t.env

theorem Records.of_eq {s t : State} (he : t.env = s.env) (hb : t.bus = s.bus) : Records s t :=
  ⟨[], by simp [hb], he⟩

theorem Records.refl (s : State) : Records s s := .of_eq rfl rfl

theorem Records.trans {s t u : State} (h : Records s t) (h' : Records t u) : Records s u := by
  obtain ⟨xs, hb, hx⟩ := h
  obtain ⟨ys, hb', hy⟩ := h'
  exact ⟨xs ++ ys, by rw [hb', hb, List.append_assoc], happened_append.mpr ⟨_, hx, hy⟩⟩

/-- "fetch next" makes no bus access. -/
theorem Records.complete {s t : State} (h : Records s t) : Records s (complete t) := h

theorem memRead_records (x : Addr) (s : State) : Records s (memRead x s).2 := ⟨[_], rfl, rfl, rfl⟩

theorem memWrite_records (x : Addr) (v : Byte) (s : State) : Records s (memWrite x v s) := ⟨[_], rfl, rfl⟩

theorem imm8_records (s : State) : Records s (imm8 s).2 := memRead_records s.pc s

theorem imm16_records (s : State) : Records s (imm16 s).2 := (imm8_records s).trans (imm8_records _)

/-- Fetch starts the record anew. -/
theorem fetch_records (s : State) : Records { s with bus := [] } (fetch s) := memRead_records s.pc { s with bus := [] }

theorem fetchCb_records (s : State) : Records s (fetchCb s) := memRead_records s.pc s

theorem setReg8_records (s : State) (r : Reg8) (v : Byte) : Records s (s.setReg8 r v) :=
  .of_eq (setReg8_env s r v) (setReg8_bus s r v)

theorem setReg16_records (s : State) (rr : Reg16) (w : Word) : Records s (s.setReg16 rr w) :=
  .of_eq (setReg16_env s rr w) (setReg16_bus s rr w)

theorem push16_records (w : Word) (s : State) : Records s (push16 w s) :=
  (memWrite_records (s.sp - 1) (hi8 w) { s with sp := s.sp - 1 }).trans
    (memWrite_records (s.sp - 1 - 1) (lo8 w) { memWrite (s.sp - 1) (hi8 w) s with sp := s.sp - 1 - 1 })

theorem Operand8.read_records (k : Operand8) (s : State) : Records s (k.read s).2 := by
  cases k with
  | reg | imm8 => exact .refl s
  | indInc | indDec => exact (memRead_records _ s).trans (setReg16_records _ .hl _)
  | ind | highC | direct8Abs | direct8High => exact memRead_records _ s

theorem Operand16.read_records (k : Operand16) (s : State) : Records s (k.read s).2 := by
  cases k with
  | reg16 | imm16 => exact .refl s
  | direct16 nn => exact (memRead_records nn s).trans (memRead_records (nn + 1) _)

theorem Operand8.write_records {k : Operand8} {v : Byte} {s t : State} (h : k.write v s = .next t) : Records s t := by
  cases k <;> cases h
  case reg r => exact setReg8_records s r v
  case indInc | indDec => exact (memWrite_records _ v s).trans (setReg16_records _ .hl _)
  all_goals exact memWrite_records _ v s

theorem Operand16.write_records {k : Operand16} {w : Word} {s t : State} (h : k.write w s = .next t) :
    Records s t := by
  cases k <;> cases h
  case reg16 rr => exact setReg16_records s rr w
  case direct16 nn => exact (memWrite_records nn _ s).trans (memWrite_records (nn + 1) _ _)

theorem modify_records {op : Byte → Byte → Byte × Byte} {k : Operand8} {s t : State} (h : modify op k s = .next t) :
    Records s t := by
  obtain ⟨u, hw, rfl⟩ := modify_next h
  have hr := Operand8.write_records hw
  exact ((k.read_records s).trans hr).complete

theorem IsHandler.records {s t : State} {r : Result} (h : IsHandler s r) (hr : r = .next t) : Records s t := by
  cases h with
  | noOperation => cases hr; exact .refl s
  | ld8 dst src _ =>
    obtain ⟨u, hw, rfl⟩ := ld8_next hr
    exact ((src.read_records s).trans (Operand8.write_records hw)).complete
  | ld16 dst src _ _ =>
    obtain ⟨u, hw, rfl⟩ := ld16_next hr
    exact ((src.read_records s).trans (Operand16.write_records hw)).complete
  | compareWithA k | bitTest _ k => cases hr; exact k.read_records s
  | increment k _ | decrement k _ | rotateLeft k _ => exact modify_records hr
  | increment16 rr _ | decrement16 rr _ => cases hr; exact setReg16_records s rr _
  | push rr => cases hr; exact push16_records _ s
  | jumpRelative cc e =>
    cases hr
    split <;> exact .refl s

/-- The way from a state to the one that an answer carries is recorded. -/
def RecordsTo (s : State) : Result → Prop
  | .next t => Records s t
  | .fault e => Records s e.state
  | .refused _ => True

theorem RecordsTo.after {s u : State} (h : Records s u) : ∀ {r : Result}, RecordsTo u r → RecordsTo s r
  | .next _, h' => h.trans h'
  | .fault _, h' => h.trans h'
  | .refused _, _ => trivial

theorem exec_records (i : Instr) (s : State) : RecordsTo s (exec i s) := by
  obtain h | rfl | ⟨op, cb, rfl⟩ := exec_isHandler i s
  · obtain ⟨t, ht⟩ := h.answers
    rw [ht]
    exact h.records ht
  · exact fetchCb_records s
  · exact .of_eq (enterFault_env _ op cb s) (enterFault_bus _ op cb s)

theorem takeOperands_records (s : State) : Records s (takeOperands s).2 := by
  unfold takeOperands
  split
  · exact .refl s
  · exact .refl s
  · exact imm8_records s
  · exact imm16_records s

theorem runDecoded_records (s : State) : RecordsTo s (runDecoded s) :=
  (exec_records _ _).after (takeOperands_records s)

theorem decodeAndExecute_records (s : State) : RecordsTo s (decodeAndExecute s) := by
  obtain ⟨-, e⟩ | ⟨-, e⟩ := decodeAndExecute_cases s <;> rw [e]
  · exact (exec_records _ _).after (takeOperands_records s)
  · exact (runDecoded_records _).after ((takeOperands_records s).trans (fetchCb_records _))

/-- A step from a fetch records all it does, from an empty record on (R79, R145). -/
theorem step_records {s : State} (hp : s.phase = .fetch) : RecordsTo { s with bus := [] } (step s) := by
  simp only [step, hp, ifAccepted]
  split
  · exact (decodeAndExecute_records _).after (fetch_records s)
  · trivial

/-- From an empty record the whole record is what happened. -/
theorem Records.happened {s t : State} (h : Records { s with bus := [] } t) : Happened s.env t.bus t.env := by
  obtain ⟨evs, hb, hh⟩ := h
  rw [hb]
  exact hh

/-- The record of a step that completes is what happened on the bus. -/
theorem step_happened {s t : State} (hp : s.phase = .fetch) (h : step s = .next t) :
    Happened s.env t.bus t.env :=
  Records.happened (show RecordsTo _ (.next t) from h ▸ step_records hp)

/-- The same of a step that faults, for the state it stops in. -/
theorem step_fault_happened {s : State} {e : Fault} (hp : s.phase = .fetch) (h : step s = .fault e) :
    Happened s.env e.state.bus e.state.env :=
  Records.happened (show RecordsTo _ (.fault e) from h ▸ step_records hp)

/-- Settles O20: every part of a step records what it does, and the fetch starts the record. -/
theorem busEventsAreWhatHappened : Obligations.BusEventsAreWhatHappened := by
  unfold Obligations.BusEventsAreWhatHappened
  intro s hp
  exact ⟨fun t h => step_happened hp h, fun t h => step_fault_happened hp h⟩

/-- Settles O17: 0xFF50 and the overlay's range by the address map, the steps by their recorded events. -/
theorem bootLatchAndOverlay : Obligations.BootLatchAndOverlay := by
  unfold Obligations.BootLatchAndOverlay
  refine ⟨fun e v hb => ⟨?_, ?_⟩, fun e a v hb ha => ?_, fun s t hp h ht => ?_, fun s t hp h hs ht => ?_⟩
  · exact Env.peek_unmapped (by rw [hb]; nofun) (by simp [Env.overlaid]) (Env.ramCell_FF50 hb)
  · rw [Env.write_no_ram hb (Env.ramCell_FF50 hb)]
    simp [Env.disablesBoot, hb]
  · exact Env.write_dropped hb (Env.ramCell_ref_none hb (by omega) (by omega)) (by rintro rfl; simp at ha) v
  · by_contra hs
    rw [(step_happened hp h).latch_stays_clear (Bool.eq_false_of_not_eq_true hs)] at ht
    cases ht
  · by_contra hn
    rw [(step_happened hp h).latch_stays_set (not_exists.mp hn) hs] at ht
    cases ht

/-- Settles O55: the recorded events are what happened, so the last write into the cell is what the next fetch reads; and
`LD (HL),r` stores where the next fetch reads if HL is PC. -/
theorem storeIsSeenByNextFetch : Obligations.StoreIsSeenByNextFetch := by
  unfold Obligations.StoreIsSeenByNextFetch
  refine ⟨fun s t before after w v hp hwf h hbus ha hw hn => ?_, fun r s t h hhl hwf hk => ?_⟩
  · have hh := step_happened hp h
    rw [hbus] at hh
    exact hh.peek_last_write hwf ha hw hn
  · rw [exec_ldAtHLR] at h
    cases h
    obtain ⟨k, hk⟩ := Option.ne_none_iff_exists'.mp hk
    have hs : (s.env.write s.pc (s.reg8 r)).peek s.pc = s.reg8 r := Env.peek_write_same hwf _ hk hk
    rw [← hhl] at hs
    simpa [Operand8.read, ptrReg, hhl] using hs

/-! ## One bus access a controller call -/

@[simp] theorem Place.after_bus (pl : Place) (s : State) : (pl.after s).bus = s.bus := by
  cases pl with
  | hlInc | hlDec => exact setReg16_bus s .hl _
  | ptr | highC | highScratch | abs | absNext | stack => rfl

/-- A stage that needs no tick makes no bus access. -/
theorem Stage.run_bus_of_not_needsTick {st : Stage} {s : State} (h : ¬st.needsTick s = true) :
    (st.run s).bus = s.bus := by
  cases st with
  | immByte | immHigh | cbByte | load | loadHigh | store => exact absurd rfl h
  | regWrite r d => exact setReg8_bus s r _
  | pairWrite rr d => exact setReg16_bus s rr _
  | jump cc => simp only [Stage.run]; split <;> rfl
  | misuse => exact enterFault_bus _ _ _ s
  | regRead | pairRead | pairUp | pairDown | compareA | compute | testBit => rfl

/-- Every stage makes at most one bus access (R63). -/
theorem Stage.run_bus (st : Stage) (s : State) : ∃ evs, (st.run s).bus = s.bus ++ evs ∧ evs.length ≤ 1 := by
  by_cases h : st.needsTick s = true
  · cases st with
    | immByte | immHigh | cbByte => exact ⟨[_], rfl, le_rfl⟩
    | load pl | loadHigh pl | store pl d => exact ⟨[_], pl.after_bus _, le_rfl⟩
    | jump cc =>
      refine ⟨[], ?_, zero_le_one⟩
      simp only [Stage.run]
      split <;> simp
    | _ => cases h
  · exact ⟨[], by rw [Stage.run_bus_of_not_needsTick h, List.append_nil], zero_le_one⟩

@[simp] theorem runAhead_bus (stages : List Stage) : ∀ s : State, (runAhead stages s).bus = s.bus := by
  induction stages with
  | nil => exact complete_bus
  | cons st rest ih =>
    intro s
    rw [runAhead]
    split
    · rfl
    · next hn =>
      have hb := Stage.run_bus_of_not_needsTick hn
      split
      · exact hb
      · exact (ih _).trans hb

@[simp] theorem enterHandler_bus (s : State) : (enterHandler s).bus = s.bus := by
  unfold enterHandler
  split
  · exact enterFault_bus _ _ _ s
  · exact runAhead_bus _ _

/-- A call that fetches nothing adds at most one event. -/
theorem tick_bus {s : State} (hp : s.phase ≠ .fetch) : ∃ evs, (tick s).bus = s.bus ++ evs ∧ evs.length ≤ 1 := by
  unfold tick
  split
  · exact ⟨[], by simp, zero_le_one⟩
  · next h => exact absurd h hp
  · exact ⟨[], by simp, zero_le_one⟩
  · split
    · exact ⟨[], by simp, zero_le_one⟩
    · exact ⟨[.rd s.pc (s.env.peek s.pc)], by simp, le_rfl⟩
    · next st rest _ _ =>
      split
      · exact st.run_bus s
      · rw [runAhead_bus]
        exact st.run_bus s

/-- Settles O56: only the first stage of a call can need the bus, and what runs ahead after it makes no access. -/
theorem oneBusAccessPerTick : Obligations.OneBusAccessPerTick := by
  unfold Obligations.OneBusAccessPerTick
  intro s
  refine ⟨fun hp => ?_, tick_bus⟩
  rw [tick_fetch hp, enterHandler_bus, fetch_bus]

end Sys2Proof.Machine

/-! The family of 30_encoding.md: the bytes of every format (O4), what every pair of an opcode byte and the CB flag decodes
to (O3), and which fetched pairs a step completes (O12). A step decodes by the same tables as the decoder
(`decode_latched`), so what a latched pair gives is read off the decoder's answer. -/

namespace Sys2Proof.Machine

/-! ## The bytes of each format (R103) -/

theorem encode_ldRR (dst r : Reg8) : encode (ldRR dst r) = [fieldsXyz 1 dst.field r.field] := by
  cases dst <;> cases r <;> rfl

theorem encode_ldRAtHL (dst : Reg8) : encode (ldRAtHL dst) = [fieldsXyz 1 dst.field 6] := by
  cases dst <;> rfl

theorem encode_ldAtHLR (r : Reg8) : encode (ldAtHLR r) = [fieldsXyz 1 6 r.field] := by
  cases r <;> rfl

theorem encode_ldRN (dst : Reg8) (n : Byte) : encode (ldRN dst n) = [fieldsXyz 0 dst.field 6, n] := by
  cases dst <;> rfl

theorem encode_ldRrNn (pp : BitVec 2) (nn : Word) :
    encode (ldRrNn pp nn) = [fieldsXp 0 pp 0b0001, lo8 nn, hi8 nn] := by
  rcases field2_cases pp with rfl | rfl | rfl | rfl <;> rfl

theorem encode_incR (dst : Reg8) : encode (incR dst) = [fieldsXyz 0 dst.field 4] := by
  cases dst <;> rfl

theorem encode_decR (dst : Reg8) : encode (decR dst) = [fieldsXyz 0 dst.field 5] := by
  cases dst <;> rfl

theorem encode_incRr (pp : BitVec 2) : encode (incRr pp) = [fieldsXp 0 pp 0b0011] := by
  rcases field2_cases pp with rfl | rfl | rfl | rfl <;> rfl

theorem encode_decRr (pp : BitVec 2) : encode (decRr pp) = [fieldsXp 0 pp 0b1011] := by
  rcases field2_cases pp with rfl | rfl | rfl | rfl <;> rfl

theorem encode_cpR (r : Reg8) : encode (cpR r) = [fieldsXyz 2 7 r.field] := by
  cases r <;> rfl

theorem encode_pushRr (pp : BitVec 2) : encode (pushRr pp) = [fieldsXp 3 pp 0b0101] := by
  rcases field2_cases pp with rfl | rfl | rfl | rfl <;> rfl

theorem encode_jrCc (cc : Cond) (e : Byte) : encode (jrCc cc e) = [fieldsJr cc.field, e] := by
  cases cc <;> rfl

theorem encode_rlR (r : Reg8) : encode (rlR r) = [0xCB, fieldsXyz 0 2 r.field] := by
  cases r <;> rfl

theorem encode_bitBR (b : BitVec 3) (r : Reg8) : encode (bitBR b r) = [0xCB, fieldsXyz 1 b r.field] := by
  rcases field3_cases b with rfl | rfl | rfl | rfl | rfl | rfl | rfl | rfl <;> cases r <;> rfl

theorem encode_bitBAtHL (b : BitVec 3) : encode (bitBAtHL b) = [0xCB, fieldsXyz 1 b 6] := by
  rcases field3_cases b with rfl | rfl | rfl | rfl | rfl | rfl | rfl | rfl <;> rfl

/-- Settles O4: each family by the operand fields its members differ in; the bytes of the other rows are fixed. -/
theorem instructionFormats : Obligations.InstructionFormats := by
  unfold Obligations.InstructionFormats
  exact ⟨encode_ldRR, encode_ldRAtHL, encode_ldAtHLR, encode_ldRN, fun _ => rfl, encode_ldRrNn,
    fun dst => ⟨encode_incR dst, encode_decR dst⟩, ⟨rfl, rfl⟩, fun pp => ⟨encode_incRr pp, encode_decRr pp⟩,
    encode_cpR, rfl, encode_pushRr, encode_jrCc, rfl, encode_rlR, rfl, encode_bitBR, encode_bitBAtHL, ⟨rfl, rfl⟩,
    ⟨rfl, rfl, rfl, rfl, rfl, rfl, rfl, rfl, rfl, rfl⟩, fun _ => ⟨rfl, rfl, rfl⟩, fun _ => ⟨rfl, rfl, rfl⟩⟩

/-! ## The decoder and the dispatch, over every pair -/

/-- What a pair decodes to under a set (R114, R142): an instruction of the pair, unimplemented where it has no handler. -/
def DecodesTo (m : Implemented) (op : Byte) (cb : Bool) (i : Instr) : Prop :=
  i.opcode = op ∧ i.isCb = cb ∧ (i = .unimplemented op cb ↔ hasHandler m op cb = false)

theorem decodesTo_unimplemented {m : Implemented} {op : Byte} {cb : Bool} (h : hasHandler m op cb = false) :
    DecodesTo m op cb (.unimplemented op cb) :=
  ⟨rfl, rfl, iff_of_true rfl h⟩

theorem decodesTo_of_hasHandler {m : Implemented} {op : Byte} {cb : Bool} {i : Instr} (h : hasHandler m op cb = true)
    (hop : i.opcode = op) (hcb : i.isCb = cb) (hu : ∀ op' cb', i ≠ .unimplemented op' cb') : DecodesTo m op cb i :=
  ⟨hop, hcb, iff_of_false (hu op cb) (by simp [h])⟩

/-- Two bytes after the opcode byte are enough to decode any pair, by what its table entry is (R109, R114). -/
theorem decode_total (m : Implemented) (op b1 b2 : Byte) (cb : Bool) (rest : List Byte) : ∃ i k, k ≤ 2 ∧
    decode m cb (op :: b1 :: b2 :: rest) = .ok (i, (b1 :: b2 :: rest).drop k) ∧ DecodesTo m op cb i := by
  cases h : hasHandler m op cb with
  | false =>
    refine ⟨.unimplemented op cb, 0, by decide, ?_, decodesTo_unimplemented h⟩
    simp [decode, entryIn_of_not_hasHandler h]
  | true =>
    have hok := tableEntry_ok cb op
    have he := entryIn_of_hasHandler h
    cases ht : tableEntry cb op <;> rw [ht] at hok he
    case absent =>
      have himp : implemented op cb = false := hok
      simp [hasHandler, himp] at h
    case plain i =>
      obtain ⟨-, hop, hcb, -, hu⟩ := hok
      exact ⟨i, 0, by decide, by simp [decode, he], decodesTo_of_hasHandler h hop hcb hu⟩
    case imm8 f =>
      obtain ⟨-, hcb, hf⟩ := hok
      obtain ⟨hop, hcb', -, -, hu⟩ := hf b1
      exact ⟨f b1, 1, by decide, by simp [decode, he], decodesTo_of_hasHandler h hop (hcb'.trans hcb.symm) hu⟩
    case imm16 f =>
      obtain ⟨-, hcb, hf⟩ := hok
      obtain ⟨hop, hcb', -, -, hu⟩ := hf (join b2 b1)
      exact ⟨f (join b2 b1), 2, le_rfl, by simp [decode, he],
        decodesTo_of_hasHandler h hop (hcb'.trans hcb.symm) hu⟩

theorem handlerOf_isSome_base (n : Nat) (h : n < 256) :
    (handlerOf false (BitVec.ofNat 8 n)).isSome = implemented (BitVec.ofNat 8 n) false := by
  interval_cases n <;> decide

theorem handlerOf_isSome_cb (n : Nat) (h : n < 256) :
    (handlerOf true (BitVec.ofNat 8 n)).isSome = implemented (BitVec.ofNat 8 n) true := by
  interval_cases n <;> decide

/-- The fields of a byte select a handler exactly where R113 does not list the pair (R110, R111). -/
theorem handlerOf_isSome (op : Byte) (cb : Bool) : (handlerOf cb op).isSome = implemented op cb := by
  have hn : op = BitVec.ofNat 8 op.toNat := by simp
  rw [hn]
  cases cb
  · exact handlerOf_isSome_base _ op.isLt
  · exact handlerOf_isSome_cb _ op.isLt

theorem dispatch_isSome (m : Implemented) (op : Byte) (cb : Bool) : (dispatch m cb op).isSome = hasHandler m op cb := by
  unfold dispatch hasHandler
  split
  · next hm => rw [handlerOf_isSome, hm, Bool.true_and]
  · next hm => rw [Bool.eq_false_of_not_eq_true hm, Bool.false_and, Option.isSome_none]

/-- Settles O3: the decoder by its table entries, the dispatch by the fields of the byte, the default set by its bits,
the two counts by evaluation. -/
theorem everyOpcodeDecodes : Obligations.EveryOpcodeDecodes := by
  unfold Obligations.EveryOpcodeDecodes
  exact ⟨decode_total, dispatch_isSome, default_hasHandler, rfl, rfl⟩

/-! ## The pair a step decodes -/

/-- Decode of a latched pair gives what the decoder gives its bytes (R142, R163, R164). -/
theorem decode_latched (s : State) : ∃ rest,
    decode s.cfg.implemented s.cb (s.opcode :: bytesAt s.env s.pc 2) = .ok ((takeOperands s).1, rest) := by
  cases he : entryIn s.cfg.implemented s.cb s.opcode <;> exact ⟨_, by simp only [decode, takeOperands, he]; rfl⟩

theorem takeOperands_decodesTo (s : State) : DecodesTo s.cfg.implemented s.opcode s.cb (takeOperands s).1 := by
  obtain ⟨rest, h⟩ := decode_latched s
  obtain ⟨i, k, -, h', hi⟩ := decode_total s.cfg.implemented s.opcode (s.env.read s.pc).1
    ((s.env.read s.pc).2.read (s.pc + 1)).1 s.cb []
  cases h.symm.trans h'
  exact hi

theorem takeOperands_prefix_CB {s : State} (hop : s.opcode = 0xCB) (hcb : s.cb = false)
    (hh : hasHandler s.cfg.implemented s.opcode s.cb = true) : takeOperands s = (.prefix_CB, s) := by
  have he : entryIn s.cfg.implemented s.cb s.opcode = .plain .prefix_CB := by
    rw [entryIn_of_hasHandler hh, hop, hcb]
    rfl
  simp only [takeOperands, he]

/-- Decode finds PREFIX CB in the base table alone, at 0xCB, where the configured set has it (R112, R142). -/
theorem takeOperands_eq_prefix_CB {s : State} : (takeOperands s).1 = .prefix_CB ↔
    s.opcode = 0xCB ∧ s.cb = false ∧ hasHandler s.cfg.implemented s.opcode s.cb = true := by
  constructor
  · intro h
    obtain ⟨hop, hcb, hu⟩ := takeOperands_decodesTo s
    rw [h] at hop hcb hu
    exact ⟨hop.symm, hcb.symm, by simpa using hu⟩
  · rintro ⟨hop, hcb, hh⟩
    rw [takeOperands_prefix_CB hop hcb hh]

/-- A run answers a next state if `handled` holds, and otherwise the fault of R331. -/
def CompletesIff (handled : Prop) (r : Result) : Prop :=
  handled ∧ (∃ t, r = .next t) ∨ ¬handled ∧ ∃ t, r = .fault (.unimplementedOpcode t)

/-- The meaning of a latched pair completes exactly where the pair has a handler (R330, R331). -/
theorem runDecoded_completesIff (s : State) :
    CompletesIff (hasHandler s.cfg.implemented s.opcode s.cb = true) (runDecoded s) := by
  obtain ⟨hop, hcb, hu⟩ := takeOperands_decodesTo s
  simp only [runDecoded]
  cases hh : hasHandler s.cfg.implemented s.opcode s.cb with
  | false =>
    rw [hu.mpr hh]
    exact .inr ⟨nofun, _, rfl⟩
  | true =>
    obtain h | ⟨op, cb, hi, -⟩ := exec_answers (takeOperands s).1 (takeOperands s).2
    · exact .inl ⟨rfl, h⟩
    · rw [hi] at hop hcb hu
      cases hop
      cases hcb
      exact absurd (hh.symm.trans (hu.mp rfl)) nofun

/-- The step after Fetch completes exactly where the latched pair has a handler and, if it is PREFIX CB, so has the next
byte in the CB table (R145, R146). -/
theorem decodeAndExecute_completesIff {s : State} (hc : s.cb = false) :
    CompletesIff (hasHandler s.cfg.implemented s.opcode false = true ∧
      (s.opcode = 0xCB → hasHandler s.cfg.implemented (s.env.read s.pc).1 true = true)) (decodeAndExecute s) := by
  have hpre := takeOperands_eq_prefix_CB (s := s)
  rw [hc] at hpre
  obtain ⟨hn, e⟩ | ⟨hp, e⟩ := decodeAndExecute_cases s
  · have hne : hasHandler s.cfg.implemented s.opcode false = true → s.opcode ≠ 0xCB :=
      fun hh hop => hn (hpre.mpr ⟨hop, rfl, hh⟩)
    have hr := runDecoded_completesIff s
    rw [hc] at hr
    rw [e]
    exact hr.imp (fun ⟨hh, ht⟩ => ⟨⟨hh, fun hop => absurd hop (hne hh)⟩, ht⟩) fun ⟨hh, ht⟩ => ⟨fun h => hh h.1, ht⟩
  · obtain ⟨hop, -, hh⟩ := hpre.mp hp
    have hr := runDecoded_completesIff (fetchCb s)
    rw [e, takeOperands_prefix_CB hop hc (hc ▸ hh)]
    exact hr.imp (fun ⟨hh', ht⟩ => ⟨⟨hh, fun _ => hh'⟩, ht⟩) fun ⟨hh', ht⟩ => ⟨fun h => hh' (h.2 hop), ht⟩

/-- Settles O12: the step is what R145 runs after Fetch, on the byte at PC and, if that is PREFIX CB, on the
byte after it. -/
theorem stepCompletesIffImplemented : Obligations.StepCompletesIffImplemented := by
  unfold Obligations.StepCompletesIffImplemented
  intro s b1 b2 hp ha hb
  obtain ⟨hop, hb'⟩ : (fetch s).opcode = b1 ∧ _ := List.cons.inj hb
  have hnext : ((fetch s).env.read (fetch s).pc).1 = b2 := (List.cons.inj hb').1
  have hs : step s = decodeAndExecute (fetch s) := by simp only [step, hp, ifAccepted, ha, if_true]
  have hd := decodeAndExecute_completesIff (s := fetch s) rfl
  rw [hop, hnext, fetch_cfg] at hd
  unfold State.Safe
  rw [hs]
  obtain ⟨hh, t, ht⟩ | ⟨hh, t, ht⟩ := hd
  · exact ⟨iff_of_true ⟨t, ht⟩ hh, fun hn => absurd ⟨t, ht⟩ hn⟩
  · exact ⟨iff_of_false (by simp [ht]) hh, fun _ => ⟨t, ht⟩⟩

end Sys2Proof.Machine

/-! The family of 40_controller.md: the tick level refines the instruction level (O59), PREFIX CB (O8), Fetch (O6), the step
of a decoded instruction (O7), and the faulted core (O11). For O59 the stages of a handler are run on a state whose fields
in flight are set apart (`State.fly`), one rule for each stage; so the stages of an operand are its bytes and its read or
write, and the stages of a handler its meaning (`StagesMean`). The opcode tables give every pair the instruction that its
handler means (`RowRuns`), and `Latched` says how a step and a run of calls both come to that pair. -/

namespace Sys2Proof.Machine

/-! ## The fields in flight -/

/-- The fields of an instruction in flight (R34 to R36), which the operations of a meaning neither read nor write. -/
structure Flight where
  phase : Phase
  handler : Handler
  stage : Nat
  scratch8 : Byte
  scratch16 : Word

/-- A state with these fields in flight. -/
def State.fly (s : State) (x : Flight) : State :=
  { s with phase := x.phase, handler := x.handler, stage := x.stage, scratch8 := x.scratch8, scratch16 := x.scratch16 }

/-- One stage further, with these bytes and words read so far. -/
def Flight.on (x : Flight) (b : Byte) (w : Word) : Flight :=
  { x with stage := x.stage + 1, scratch8 := b, scratch16 := w }

/-- A state with these flags. -/
def State.setF (s : State) (g : Byte) : State := { s with f := g }

@[simp] theorem Flight.on_scratch8 (x : Flight) (b : Byte) (w : Word) : (x.on b w).scratch8 = b := rfl
@[simp] theorem Flight.on_scratch16 (x : Flight) (b : Byte) (w : Word) : (x.on b w).scratch16 = w := rfl
@[simp] theorem complete_fly (s : State) (x : Flight) : complete (s.fly x) = complete s := rfl
@[simp] theorem fly_f (s : State) (x : Flight) : (s.fly x).f = s.f := rfl
@[simp] theorem fly_reg8 (s : State) (x : Flight) (r : Reg8) : (s.fly x).reg8 r = s.reg8 r := by cases r <;> rfl
@[simp] theorem fly_reg16 (s : State) (x : Flight) (rr : Reg16) : (s.fly x).reg16 rr = s.reg16 rr := by cases rr <;> rfl
@[simp] theorem setF_f (s : State) : s.setF s.f = s := rfl
@[simp] theorem setF_setF (s : State) (g g' : Byte) : (s.setF g).setF g' = s.setF g' := rfl
@[simp] theorem f_setF (s : State) (g : Byte) : (s.setF g).f = g := rfl
@[simp] theorem reg16_imm8 (s : State) (rr : Reg16) : (imm8 s).2.reg16 rr = s.reg16 rr := by cases rr <;> rfl

theorem startState_eq_fly (h : Handler) (s : State) :
    startState h s = s.fly ⟨.execute, h, 0, s.scratch8, s.scratch16⟩ := rfl

/-! ## One rule for each stage -/

/-- The address of an access: in a scratch field, or from the registers. -/
@[simp] theorem Place.addr_fly (s : State) (x : Flight) (pl : Place) :
    pl.addr (s.fly x) =
      match pl with
      | .highScratch => highPage x.scratch8
      | .abs => x.scratch16
      | .absNext => x.scratch16 + 1
      | pl => pl.addr s := by
  cases pl with
  | ptr p => exact fly_reg16 s x (ptrReg p)
  | hlInc | hlDec => exact fly_reg16 s x .hl
  | highC | highScratch | abs | absNext | stack => rfl

@[simp] theorem Datum.value_reg (s : State) (x : Flight) (r : Reg8) :
    (Datum.reg r).value (s.fly x) = (s.reg8 r, s.f) := by simp [Datum.value]
@[simp] theorem Datum.value_scratch (s : State) (x : Flight) :
    Datum.scratch.value (s.fly x) = (x.scratch8, s.f) := rfl
@[simp] theorem Datum.value_lo (s : State) (x : Flight) (d : Datum16) :
    (Datum.lo d).value (s.fly x) = (lo8 (d.value (s.fly x)), s.f) := rfl
@[simp] theorem Datum.value_hi (s : State) (x : Flight) (d : Datum16) :
    (Datum.hi d).value (s.fly x) = (hi8 (d.value (s.fly x)), s.f) := rfl
@[simp] theorem Datum16.value_pair (s : State) (x : Flight) (rr : Reg16) :
    (Datum16.pair rr).value (s.fly x) = s.reg16 rr := fly_reg16 s x rr

@[simp] theorem advance_immByte (s : State) (x : Flight) :
    advance .immByte (s.fly x) = (imm8 s).2.fly (x.on (imm8 s).1 x.scratch16) := rfl
@[simp] theorem advance_immHigh (s : State) (x : Flight) :
    advance .immHigh (s.fly x) = (imm8 s).2.fly (x.on x.scratch8 (join (imm8 s).1 x.scratch8)) := rfl
@[simp] theorem advance_load (s : State) (x : Flight) (pl : Place) :
    advance (.load pl) (s.fly x) = (pl.after (memRead (pl.addr (s.fly x)) s).2).fly
      (x.on (memRead (pl.addr (s.fly x)) s).1 x.scratch16) := by cases pl <;> rfl
@[simp] theorem advance_loadHigh (s : State) (x : Flight) (pl : Place) :
    advance (.loadHigh pl) (s.fly x) = (pl.after (memRead (pl.addr (s.fly x)) s).2).fly
      (x.on x.scratch8 (join (memRead (pl.addr (s.fly x)) s).1 x.scratch8)) := by cases pl <;> rfl
@[simp] theorem advance_store (s : State) (x : Flight) (pl : Place) (d : Datum) :
    advance (.store pl d) (s.fly x) =
      (pl.after (memWrite (pl.addr (s.fly x)) (d.value (s.fly x)).1 (s.setF (d.value (s.fly x)).2))).fly
        (x.on x.scratch8 x.scratch16) := by cases pl <;> rfl
@[simp] theorem advance_regRead (s : State) (x : Flight) (r : Reg8) :
    advance (.regRead r) (s.fly x) = s.fly (x.on (s.reg8 r) x.scratch16) := by cases r <;> rfl
@[simp] theorem advance_regWrite (s : State) (x : Flight) (r : Reg8) (d : Datum) :
    advance (.regWrite r d) (s.fly x) =
      ((s.setF (d.value (s.fly x)).2).setReg8 r (d.value (s.fly x)).1).fly (x.on x.scratch8 x.scratch16) := by
  cases r <;> rfl
@[simp] theorem advance_pairRead (s : State) (x : Flight) (rr : Reg16) :
    advance (.pairRead rr) (s.fly x) = s.fly (x.on x.scratch8 (s.reg16 rr)) := by cases rr <;> rfl
@[simp] theorem advance_pairWrite (s : State) (x : Flight) (rr : Reg16) (d : Datum16) :
    advance (.pairWrite rr d) (s.fly x) = (s.setReg16 rr (d.value (s.fly x))).fly (x.on x.scratch8 x.scratch16) := by
  cases rr <;> rfl
@[simp] theorem advance_pairUp (s : State) (x : Flight) :
    advance .pairUp (s.fly x) = s.fly (x.on x.scratch8 (x.scratch16 + 1)) := rfl
@[simp] theorem advance_pairDown (s : State) (x : Flight) :
    advance .pairDown (s.fly x) = s.fly (x.on x.scratch8 (x.scratch16 - 1)) := rfl
@[simp] theorem advance_compareA (s : State) (x : Flight) :
    advance .compareA (s.fly x) = (s.setF (cpFlags s.a x.scratch8 s.f)).fly (x.on x.scratch8 x.scratch16) := rfl
@[simp] theorem advance_testBit (s : State) (x : Flight) (b : BitVec 3) :
    advance (.testBit b) (s.fly x) = (s.setF (bitFlags b x.scratch8 s.f)).fly (x.on x.scratch8 x.scratch16) := rfl
@[simp] theorem advance_compute (s : State) (x : Flight) (m : Modify) :
    advance (.compute m) (s.fly x) =
      (s.setF (m.run x.scratch8 s.f).2).fly (x.on (m.run x.scratch8 s.f).1 x.scratch16) := rfl
@[simp] theorem advance_jump (s : State) (x : Flight) (cc : Cond) :
    advance (.jump cc) (s.fly x) =
      (if condHolds cc s.f then { s with pc := s.pc + sext16 x.scratch8 } else s).fly (x.on x.scratch8 x.scratch16) := by
  cases h : condHolds cc s.f <;> simp only [advance, Stage.run, fly_f, h] <;> rfl

/-! ## What a handler means, its operands' bytes included -/

/-- An 8-bit operand with the bytes it takes from the instruction stream, and the state after them (R163, R169, R170). -/
def take8 (k : Kind8) (s : State) : Operand8 × State :=
  match k with
  | .reg r => (.reg r, s)
  | .imm8 => (.imm8 (imm8 s).1, (imm8 s).2)
  | .ind p => (.ind p, s)
  | .indInc => (.indInc, s)
  | .indDec => (.indDec, s)
  | .highC => (.highC, s)
  | .direct8Abs => (.direct8Abs (imm16 s).1, (imm16 s).2)
  | .direct8High => (.direct8High (imm8 s).1, (imm8 s).2)

/-- The same of a 16-bit operand (R164, R171). -/
def take16 (k : Kind16) (s : State) : Operand16 × State :=
  match k with
  | .reg16 rr => (.reg16 rr, s)
  | .imm16 => (.imm16 (imm16 s).1, (imm16 s).2)
  | .direct16 => (.direct16 (imm16 s).1, (imm16 s).2)

/-- What a handler does at the instruction level, from Decode on: it takes the bytes of its operands, source first, and
runs. `entryIn_rowRuns` ties it to `exec`, `stagesMean_of_encodable` to the stages. -/
def meaning (h : Handler) (s : State) : Result :=
  match h with
  | .idle => .next (complete s)
  | .nop => noOperation s
  | .prefixCb => runDecoded (fetchCb s)
  | .ld8 dst src =>
    let r := take8 src s
    let w := take8 dst r.2
    ld8 w.1 r.1 w.2
  | .ld16 dst src =>
    let r := take16 src s
    let w := take16 dst r.2
    ld16 w.1 r.1 w.2
  | .cp k => compareWithA (take8 k s).1 (take8 k s).2
  | .inc k => increment (take8 k s).1 (take8 k s).2
  | .dec k => decrement (take8 k s).1 (take8 k s).2
  | .inc16 rr => increment16 rr s
  | .dec16 rr => decrement16 rr s
  | .rl k => rotateLeft (take8 k s).1 (take8 k s).2
  | .bit b k => bitTest b (take8 k s).1 (take8 k s).2
  | .push rr => push rr s
  | .jr cc => jumpRelative cc (imm8 s).1 (imm8 s).2

/-- Whether an operand takes bytes from the instruction stream. -/
def takesBytes : Kind8 → Bool
  | .imm8 => true
  | .direct8Abs => true
  | .direct8High => true
  | _ => false

/-- The handlers over operands that an encoding can select, PREFIX CB apart: no immediate is written, and no operand's
bytes pass through a scratch field that holds another's value (notes/assumptions 21). -/
def encodable : Handler → Bool
  | .idle => false
  | .prefixCb => false
  | .ld8 dst (.reg _) => decide (dst ≠ .imm8)
  | .ld8 dst _ => !takesBytes dst
  | .ld16 dst (.reg16 _) => decide (dst ≠ .imm16)
  | .ld16 (.reg16 _) _ => true
  | .ld16 _ _ => false
  | .inc k => !takesBytes k
  | .dec k => !takesBytes k
  | .rl k => !takesBytes k
  | _ => true

/-- Whether a handler is a JR whose condition holds. -/
def jumps : Handler → Byte → Bool
  | .jr cc, f => condHolds cc f
  | _, _ => false

/-! ## Operands, stage by stage -/

/-- The stages of an 8-bit read take the operand's bytes and read it; the value ends in `scratch8`. -/
theorem runAll_read8Stages (k : Kind8) (rest : List Stage) (s : State) (x : Flight) :
    ∃ y : Flight, y.scratch8 = ((take8 k s).1.read (take8 k s).2).1 ∧
      runAll (read8Stages k ++ rest) (s.fly x) = runAll rest (((take8 k s).1.read (take8 k s).2).2.fly y) := by
  cases k <;>
    simp only [read8Stages, List.cons_append, List.nil_append, runAll, advance_regRead, advance_immByte,
      advance_immHigh, advance_load] <;>
    exact ⟨_, by rfl, rfl⟩

/-- The same of a 16-bit read; the value ends in `scratch16`. -/
theorem runAll_read16Stages (k : Kind16) (rest : List Stage) (s : State) (x : Flight) :
    ∃ y : Flight, y.scratch16 = ((take16 k s).1.read (take16 k s).2).1 ∧
      runAll (read16Stages k ++ rest) (s.fly x) = runAll rest (((take16 k s).1.read (take16 k s).2).2.fly y) := by
  cases k <;>
    simp only [read16Stages, List.cons_append, List.nil_append, runAll, advance_pairRead, advance_immByte,
      advance_immHigh, advance_load, advance_loadHigh] <;>
    exact ⟨_, by rfl, rfl⟩

/-- An operand without bytes of its own leaves the state. -/
theorem take8_state {k : Kind8} (h : takesBytes k = false) (s : State) : (take8 k s).2 = s := by
  cases k with
  | imm8 | direct8Abs | direct8High => cases h
  | reg | ind | indInc | indDec | highC => rfl

/-- The stages of a write to an operand without bytes of its own write the datum, and F with it. -/
theorem runAll_write8Stages {k : Kind8} (h : takesBytes k = false) (d : Datum) (s t : State) (x : Flight) :
    .next (runAll (write8Stages d k) (s.fly x)) =
      thenComplete ((take8 k t).1.write (d.value (s.fly x)).1 (s.setF (d.value (s.fly x)).2)) := by
  cases k with
  | imm8 | direct8Abs | direct8High => cases h
  | reg r => simp only [write8Stages, runAll, advance_regWrite]; rfl
  | ind p => simp only [write8Stages, runAll, advance_store]; cases p <;> rfl
  | indInc | indDec | highC => simp only [write8Stages, runAll, advance_store]; rfl

/-- The stages of a write of a register's byte take the destination's bytes and write it. -/
theorem runAll_write8Stages_reg {k : Kind8} (h : k ≠ .imm8) (r : Reg8) (s : State) (x : Flight) :
    .next (runAll (write8Stages (.reg r) k) (s.fly x)) =
      thenComplete ((take8 k s).1.write ((take8 k s).2.reg8 r) (take8 k s).2) := by
  cases k with
  | imm8 => exact absurd rfl h
  | direct8Abs | direct8High =>
    simp only [write8Stages, runAll, advance_immByte, advance_immHigh, advance_store, Place.addr_fly, Datum.value_reg,
      setF_f]
    rfl
  | reg | ind | indInc | indDec | highC =>
    rw [runAll_write8Stages rfl (.reg r) s s x, Datum.value_reg, setF_f]
    rfl

/-- The stages after the read of a read-modify-write handler compute, write F, and write the byte back, under either
schedule. -/
theorem runAll_modifyStages {k : Kind8} (h : takesBytes k = false) (mc : ModifyCall) (m : Modify) (s t : State)
    (x : Flight) :
    .next (runAll (modifyStages mc m k) (s.fly x)) =
      thenComplete ((take8 k t).1.write (m.run x.scratch8 s.f).1 (s.setF (m.run x.scratch8 s.f).2)) := by
  cases mc with
  | read =>
    simp only [modifyStages, runAll, advance_compute, runAll_write8Stages h _ _ t, Datum.value_scratch,
      Flight.on_scratch8, f_setF, setF_setF]
  | write => exact runAll_write8Stages h (.modified m) s t x

/-! ## The stages of a handler do what it means -/

/-- The stages of a handler, one after another and "fetch next", do what its meaning does. -/
def StagesMean (h : Handler) : Prop :=
  ∀ (s : State) (x : Flight), meaning h s = .next (runAll (s.stagesOf h) (s.fly x))

/-- The byte an 8-bit source has left where the write takes it from. -/
theorem datum8_value (src : Kind8) (s : State) {y : Flight}
    (h : y.scratch8 = ((take8 src s).1.read (take8 src s).2).1) :
    (datum8 src).value (((take8 src s).1.read (take8 src s).2).2.fly y) =
      (((take8 src s).1.read (take8 src s).2).1, ((take8 src s).1.read (take8 src s).2).2.f) := by
  cases src with
  | reg r => exact Datum.value_reg s y r
  | _ => rw [← h]; rfl

/-- The word a 16-bit source has left where the write takes it from. -/
theorem datum16_value (src : Kind16) (s : State) {y : Flight}
    (h : y.scratch16 = ((take16 src s).1.read (take16 src s).2).1) :
    (datum16 src).value (((take16 src s).1.read (take16 src s).2).2.fly y) =
      ((take16 src s).1.read (take16 src s).2).1 := by
  cases src with
  | reg16 rr => exact fly_reg16 s y rr
  | imm16 | direct16 => exact h

/-- A source register is read when the destination is written, after its address bytes (R173). -/
theorem stagesMean_ld8_reg {dst : Kind8} (h : dst ≠ .imm8) (r : Reg8) : StagesMean (.ld8 dst (.reg r)) := by
  intro s x
  simp only [State.stagesOf, handlerStages, read8Stages, List.cons_append, List.nil_append, runAll, advance_regRead,
    datum8, runAll_write8Stages_reg h]
  rfl

/-- Any source is read before a destination without bytes of its own is written. -/
theorem stagesMean_ld8 {dst : Kind8} (h : takesBytes dst = false) (src : Kind8) : StagesMean (.ld8 dst src) := by
  intro s x
  obtain ⟨y, hv, e⟩ := runAll_read8Stages src (write8Stages (datum8 src) dst) s x
  rw [State.stagesOf, handlerStages, e, runAll_write8Stages h _ _ (take8 src s).2, datum8_value src s hv, setF_f]
  simp only [meaning, ld8, take8_state h]

theorem stagesMean_ld16_reg16 (rr : Reg16) (src : Kind16) : StagesMean (.ld16 (.reg16 rr) src) := by
  intro s x
  obtain ⟨y, hv, e⟩ := runAll_read16Stages src (write16Stages (datum16 src) (.reg16 rr)) s x
  rw [State.stagesOf, handlerStages, e]
  simp only [write16Stages, runAll, advance_pairWrite, complete_fly, datum16_value src s hv]
  rfl

theorem stagesMean_ld16_direct16 (rr : Reg16) : StagesMean (.ld16 .direct16 (.reg16 rr)) := by
  intro s x
  simp only [State.stagesOf, handlerStages, read16Stages, write16Stages, datum16, List.cons_append, List.nil_append,
    runAll, advance_pairRead, advance_immByte, advance_immHigh, advance_store, Place.addr_fly, Place.after,
    Datum.value_lo, Datum.value_hi, Datum16.value_pair, setF_f, reg16_imm8, reg16_memWrite, Flight.on_scratch8,
    Flight.on_scratch16, complete_fly, meaning, ld16, take16, Operand16.read, Operand16.write, thenComplete, memWrite16,
    imm16]

theorem modify_stages {k : Kind8} (h : takesBytes k = false) (mc : ModifyCall) (m : Modify) (s : State) (x : Flight) :
    modify m.run (take8 k s).1 (take8 k s).2 = .next (runAll (read8Stages k ++ modifyStages mc m k) (s.fly x)) := by
  obtain ⟨y, hv, e⟩ := runAll_read8Stages k (modifyStages mc m k) s x
  rw [e, runAll_modifyStages h mc m _ s, hv]
  rfl

theorem stagesMean_cp (k : Kind8) : StagesMean (.cp k) := by
  intro s x
  obtain ⟨y, hv, e⟩ := runAll_read8Stages k [.compareA] s x
  simp only [State.stagesOf, handlerStages, e, runAll, advance_compareA, complete_fly, hv]
  rfl

theorem stagesMean_bit (b : BitVec 3) (k : Kind8) : StagesMean (.bit b k) := by
  intro s x
  obtain ⟨y, hv, e⟩ := runAll_read8Stages k [.testBit b] s x
  simp only [State.stagesOf, handlerStages, e, runAll, advance_testBit, complete_fly, hv]
  rfl

/-- The stages of every handler that an encoding can select do what it means (R143, R147). -/
theorem stagesMean_of_encodable {h : Handler} (he : encodable h = true) : StagesMean h := by
  cases h with
  | idle | prefixCb => cases he
  | nop => exact fun _ _ => rfl
  | ld8 dst src =>
    cases src with
    | reg r => exact stagesMean_ld8_reg (of_decide_eq_true he) r
    | _ => exact stagesMean_ld8 ((Bool.not_eq_true' _).mp he) _
  | ld16 dst src =>
    cases dst with
    | reg16 rr => exact stagesMean_ld16_reg16 rr src
    | imm16 => cases src <;> cases he
    | direct16 =>
      cases src with
      | reg16 rr => exact stagesMean_ld16_direct16 rr
      | imm16 | direct16 => cases he
  | cp k => exact stagesMean_cp k
  | bit b k => exact stagesMean_bit b k
  | inc k => exact fun s x => modify_stages ((Bool.not_eq_true' _).mp he) _ .inc s x
  | dec k => exact fun s x => modify_stages ((Bool.not_eq_true' _).mp he) _ .dec s x
  | rl k => exact fun s x => modify_stages ((Bool.not_eq_true' _).mp he) _ .rl s x
  | inc16 rr | dec16 rr | push rr | jr cc =>
    intro s x
    simp only [State.stagesOf, handlerStages, runAll, advance_pairRead, advance_pairUp, advance_pairDown,
      advance_pairWrite, advance_store, advance_immByte, advance_jump, complete_fly]
    rfl

/-! ## How many calls the stages of a handler take -/

/-- A stage inside its handler whose tick, if it needs one, is a bus access: not a jump. -/
def Stage.steady : Stage → Bool
  | .misuse => false
  | .cbByte => false
  | .jump _ => false
  | _ => true

theorem Stage.plain_of_steady {st : Stage} (h : st.steady = true) : st.plain = true :=
  Stage.plain_of_ne (by rintro rfl; cases h) (by rintro rfl; cases h)

/-- A steady stage makes one bus access if it needs a tick, and none otherwise. -/
theorem Stage.run_bus_length {st : Stage} (h : st.steady = true) (s : State) :
    (st.run s).bus.length = s.bus.length + if st.needsTick s = true then 1 else 0 := by
  by_cases hn : st.needsTick s = true
  · rw [if_pos hn]
    cases st with
    | immByte | immHigh | load | loadHigh | store => simp [Stage.run]
    | cbByte | jump | misuse => cases h
    | regRead | regWrite | pairRead | pairWrite | pairUp | pairDown | compareA | compute | testBit => cases hn
  · rw [if_neg hn, Stage.run_bus_of_not_needsTick hn, Nat.add_zero]

theorem runAll_bus_length {stages : List Stage} (h : stages.all Stage.steady = true) : ∀ s : State,
    (runAll stages s).bus.length = s.bus.length + tickCount stages s := by
  induction stages with
  | nil => intro s; rfl
  | cons st rest ih =>
    intro s
    obtain ⟨hst, hrest⟩ : st.steady = true ∧ rest.all Stage.steady = true := by simpa using h
    have hb : (advance st s).bus.length = _ := Stage.run_bus_length hst s
    rw [runAll, tickCount, ih hrest, hb, Nat.add_assoc]

theorem read8Stages_steady (k : Kind8) : (read8Stages k).all Stage.steady = true := by cases k <;> rfl

theorem read16Stages_steady (k : Kind16) : (read16Stages k).all Stage.steady = true := by cases k <;> rfl

theorem write8Stages_steady {k : Kind8} (h : k ≠ .imm8) (d : Datum) :
    (write8Stages d k).all Stage.steady = true := by
  cases k with
  | imm8 => exact absurd rfl h
  | _ => rfl

theorem modifyStages_steady {k : Kind8} (h : k ≠ .imm8) (mc : ModifyCall) (m : Modify) :
    (modifyStages mc m k).all Stage.steady = true := by
  cases mc <;> exact write8Stages_steady h _

theorem handlerStages_steady {h : Handler} (he : encodable h = true) (hj : ∀ cc, h ≠ .jr cc) (mc : ModifyCall) :
    (handlerStages mc h).all Stage.steady = true := by
  have hm {k : Kind8} (hk : (!takesBytes k) = true) : k ≠ .imm8 := by rintro rfl; cases hk
  cases h with
  | idle | prefixCb => cases he
  | jr cc => exact absurd rfl (hj cc)
  | nop | inc16 | dec16 | push => rfl
  | ld8 dst src =>
    have hd : dst ≠ .imm8 := by rintro rfl; cases src <;> cases he
    simp [handlerStages, read8Stages_steady, write8Stages_steady hd]
  | ld16 dst src =>
    have hd : (write16Stages (datum16 src) dst).all Stage.steady = true := by
      cases dst with
      | reg16 | direct16 => rfl
      | imm16 => cases src <;> cases he
    simp [handlerStages, read16Stages_steady, hd]
  | cp k | bit b k => simp [handlerStages, read8Stages_steady, Stage.steady]
  | inc k | dec k | rl k => simp [handlerStages, read8Stages_steady, modifyStages_steady (hm he)]

theorem handlerStages_plain {h : Handler} (he : encodable h = true) (mc : ModifyCall) :
    (handlerStages mc h).all Stage.plain = true := by
  by_cases hj : ∃ cc, h = .jr cc
  · obtain ⟨cc, rfl⟩ := hj
    rfl
  · have hs := handlerStages_steady he (not_exists.mp hj) mc
    rw [List.all_eq_true] at hs ⊢
    exact fun st hm => Stage.plain_of_steady (hs st hm)

theorem jumps_of_ne_jr {h : Handler} (hj : ∀ cc, h ≠ .jr cc) (f : Byte) : jumps h f = false := by
  cases h with
  | jr cc => exact absurd rfl (hj cc)
  | _ => rfl

/-- The stages of a handler take a call for each bus access, and a taken JR takes one more (R147). -/
theorem handler_tickCount {h : Handler} (he : encodable h = true) (s : State) :
    (runAll (s.stagesOf h) (startState h s)).bus.length + (if jumps h s.f then 1 else 0) =
      s.bus.length + tickCount (s.stagesOf h) (startState h s) := by
  by_cases hj : ∃ cc, h = .jr cc
  · obtain ⟨cc, rfl⟩ := hj
    have hst : s.stagesOf (.jr cc) = [.immByte, .jump cc] := rfl
    cases hc : condHolds cc s.f <;>
      simp [hst, runAll, tickCount, startState_eq_fly, Stage.needsTick, jumps, hc]
  · have hs := handlerStages_steady he (not_exists.mp hj) s.cfg.modifyCall
    rw [jumps_of_ne_jr (not_exists.mp hj)]
    exact runAll_bus_length hs (startState h s)

/-! ## The row and the handler of a pair -/

/-- The row of a pair and the handler the pair dispatches to: none of both, PREFIX CB, or an instruction whose meaning is
its handler's, and which jumps where its handler does. -/
inductive RowRuns : Row → Option Handler → Prop where
  | absent : RowRuns .absent none
  | prefixCb : RowRuns (.plain .prefix_CB) (some .prefixCb)
  | plain {i : Instr} {h : Handler} (he : encodable h = true) (hx : ∀ s, exec i s = meaning h s)
      (hj : jumpTaken i = jumps h) : RowRuns (.plain i) (some h)
  | imm8 {f : Byte → Instr} {h : Handler} (he : encodable h = true)
      (hx : ∀ s, exec (f (imm8 s).1) (imm8 s).2 = meaning h s) (hj : ∀ n, jumpTaken (f n) = jumps h) :
      RowRuns (.imm8 f) (some h)
  | imm16 {f : Word → Instr} {h : Handler} (he : encodable h = true)
      (hx : ∀ s, exec (f (imm16 s).1) (imm16 s).2 = meaning h s) (hj : ∀ nn, jumpTaken (f nn) = jumps h) :
      RowRuns (.imm16 f) (some h)

theorem rowRuns_base (n : Nat) (h : n < 256) :
    RowRuns (tableEntry false (BitVec.ofNat 8 n)) (handlerOf false (BitVec.ofNat 8 n)) := by
  interval_cases n <;>
    first
    | exact .absent
    | exact .prefixCb
    | exact .plain rfl (fun _ => rfl) rfl
    | exact .imm8 rfl (fun _ => rfl) (fun _ => rfl)
    | exact .imm16 rfl (fun _ => rfl) (fun _ => rfl)

theorem rowRuns_cb (n : Nat) (h : n < 256) :
    RowRuns (tableEntry true (BitVec.ofNat 8 n)) (handlerOf true (BitVec.ofNat 8 n)) := by
  interval_cases n <;>
    first
    | exact .absent
    | exact .plain rfl (fun _ => rfl) rfl

/-- The tables and the fields of a byte agree on what a pair runs (R110, R111). -/
theorem tableEntry_rowRuns (cb : Bool) (op : Byte) : RowRuns (tableEntry cb op) (handlerOf cb op) := by
  have hn : op = BitVec.ofNat 8 op.toNat := by simp
  rw [hn]
  cases cb
  · exact rowRuns_base _ op.isLt
  · exact rowRuns_cb _ op.isLt

/-- The same under a configured set, which leaves a pair both its row and its handler, or neither (R6, R142). -/
theorem entryIn_rowRuns (m : Implemented) (cb : Bool) (op : Byte) : RowRuns (entryIn m cb op) (dispatch m cb op) := by
  unfold entryIn dispatch
  split
  · exact tableEntry_rowRuns cb op
  · exact .absent

/-- The meaning of a latched pair without a handler is the fault that Decode enters (R331, R335). -/
theorem runDecoded_of_dispatch_none {d : State} (hd : dispatch d.cfg.implemented d.cb d.opcode = none) :
    runDecoded d = .fault (.unimplementedOpcode (enterHandler d)) := by
  have hr := entryIn_rowRuns d.cfg.implemented d.cb d.opcode
  rw [hd] at hr
  cases he : entryIn d.cfg.implemented d.cb d.opcode <;> rw [he] at hr <;> cases hr
  simp only [runDecoded, takeOperands, he, enterHandler, hd]
  rfl

/-- The meaning of a latched pair with a handler is the handler's. -/
theorem runDecoded_of_dispatch {d : State} {h : Handler} (hd : dispatch d.cfg.implemented d.cb d.opcode = some h)
    (hi : (takeOperands d).1 ≠ .prefix_CB) :
    encodable h = true ∧ runDecoded d = meaning h d ∧ jumpTaken (takeOperands d).1 = jumps h := by
  have hr := entryIn_rowRuns d.cfg.implemented d.cb d.opcode
  rw [hd] at hr
  unfold runDecoded
  unfold takeOperands at hi ⊢
  generalize entryIn d.cfg.implemented d.cb d.opcode = row at hi hr ⊢
  cases hr with
  | prefixCb => exact absurd rfl hi
  | plain he hx hj => exact ⟨he, hx d, hj⟩
  | imm8 he hx hj => exact ⟨he, hx d, hj _⟩
  | imm16 he hx hj => exact ⟨he, hx d, hj _⟩

/-! ## The bytes a decoder takes -/

/-- What the decoder gives is what its pair decodes to, and the bytes it took are the instruction's own (R109, R114). -/
theorem decode_sound {m : Implemented} {cb : Bool} {bytes rest : List Byte} {i : Instr}
    (h : decode m cb bytes = .ok (i, rest)) :
    DecodesTo m i.opcode cb i ∧ bytes = i.opcode :: (i.immediates ++ rest) := by
  cases bytes with
  | nil => cases h
  | cons op tail =>
    cases hh : hasHandler m op cb with
    | false =>
      simp only [decode, entryIn_of_not_hasHandler hh] at h
      cases h
      exact ⟨decodesTo_unimplemented hh, rfl⟩
    | true =>
      have hok := tableEntry_ok cb op
      simp only [decode, entryIn_of_hasHandler hh] at h
      cases ht : tableEntry cb op <;> simp only [ht] at hok h
      case absent =>
        have himp : implemented op cb = false := hok
        simp [hasHandler, himp] at hh
      case plain j =>
        cases h
        obtain ⟨-, rfl, hcb, himm, hu⟩ := hok
        exact ⟨decodesTo_of_hasHandler hh rfl hcb hu, by rw [himm]; rfl⟩
      case imm8 f =>
        obtain ⟨-, hcb, hf⟩ := hok
        cases tail with
        | nil => cases h
        | cons n tail =>
          cases h
          obtain ⟨rfl, hcb', himm, -, hu⟩ := hf n
          exact ⟨decodesTo_of_hasHandler hh rfl (hcb'.trans hcb.symm) hu, by rw [himm]; rfl⟩
      case imm16 f =>
        obtain ⟨-, hcb, hf⟩ := hok
        match tail, h with
        | lo :: hi :: tail, h =>
          cases h
          obtain ⟨rfl, hcb', himm, -, hu⟩ := hf (join hi lo)
          exact ⟨decodesTo_of_hasHandler hh rfl (hcb'.trans hcb.symm) hu, by rw [himm, lo8_join, hi8_join]; rfl⟩

/-- An instruction that a reachable pair decodes to is well formed. -/
theorem DecodesTo.wellFormedIn {m : Implemented} {op : Byte} {cb : Bool} {i : Instr} (h : DecodesTo m op cb i)
    (hc : cb = true → hasHandler m 0xCB false = true) : i.wellFormedIn m = true := by
  obtain ⟨rfl, rfl, hu⟩ := h
  have hp : (!i.isCb || hasHandler m 0xCB false) = true := by
    cases hi : i.isCb with
    | false => rfl
    | true => exact hc hi
  unfold Instr.wellFormedIn
  rw [hp, Bool.true_and]
  split
  · exact (Bool.not_eq_true' _).mpr (hu.mp rfl)
  · next hn => exact Bool.eq_true_of_not_eq_false fun hf => hn _ _ (hu.mpr hf)

/-- Of the bytes that stand at an address, the first ones stand there. -/
theorem bytesAt_of_append {xs ys : List Byte} : ∀ {e : Env} {a : Addr} {n : Nat},
    bytesAt e a n = xs ++ ys → bytesAt e a xs.length = xs := by
  induction xs with
  | nil => intros; rfl
  | cons x xs ih =>
    intro e a n h
    cases n with
    | zero => cases h
    | succ n =>
      obtain ⟨hx, hxs⟩ := List.cons.inj h
      exact congrArg₂ List.cons hx (ih hxs)

theorem fetches_of_bytes {s : State} {i : Instr} (n : Nat) {rest : List Byte} (hp : s.phase = .fetch)
    (ha : s.env.cfg.accepted = true) (hw : i.wellFormedIn s.cfg.implemented = true)
    (hb : bytesAt s.env s.pc n = encode i ++ rest) : Fetches i s :=
  ⟨hp, ha, hw, bytesAt_of_append hb⟩

/-! ## From Fetch to the handler -/

/-- `d` is where the pair that a step from `s` runs is latched, after the byte at PC or after PREFIX CB and the byte after
it: the step is the meaning of that pair, whose instruction stands at PC, and as many calls as `d` has fetches decode the
pair, the controller waiting in Execute before the last (R141, R146, R148). -/
structure Latched (s d : State) : Prop where
  step_eq : step s = runDecoded d
  ne_prefix_CB : (takeOperands d).1 ≠ .prefix_CB
  fetches : Fetches (takeOperands d).1 s
  f_eq : d.f = s.f
  ticks_eq : ticks d.bus.length s = enterHandler d
  waits : ∀ k, 0 < k → k < d.bus.length → (ticks k s).phase = .execute

theorem step_of_fetch {s : State} (hp : s.phase = .fetch) (ha : s.env.cfg.accepted = true) :
    step s = decodeAndExecute (fetch s) := by
  simp only [step, hp, ifAccepted, ha, if_true]

theorem latched_fetch {s : State} (hp : s.phase = .fetch) (ha : s.env.cfg.accepted = true)
    (hn : (takeOperands (fetch s)).1 ≠ .prefix_CB) : Latched s (fetch s) where
  step_eq := by
    obtain ⟨-, e⟩ | ⟨h, -⟩ := decodeAndExecute_cases (fetch s)
    · rw [step_of_fetch hp ha, e]; rfl
    · exact absurd h hn
  ne_prefix_CB := hn
  fetches := by
    obtain ⟨rest, h⟩ := decode_latched (fetch s)
    obtain ⟨hd, hb⟩ := decode_sound h
    obtain ⟨-, hcb, -⟩ := id hd
    exact fetches_of_bytes 3 hp ha (hd.wellFormedIn nofun) (by rw [encode_base hcb]; exact hb)
  f_eq := rfl
  ticks_eq := tick_fetch hp
  waits := fun _ hpos hlt => absurd hlt (Nat.not_lt.mpr hpos)

theorem latched_fetchCb {s : State} (hp : s.phase = .fetch) (ha : s.env.cfg.accepted = true)
    (hpre : (takeOperands (fetch s)).1 = .prefix_CB) : Latched s (fetchCb (fetch s)) := by
  obtain ⟨hop, -, hh⟩ := takeOperands_eq_prefix_CB.mp hpre
  have hbyte : s.env.peek s.pc = 0xCB := hop
  have hhand : hasHandler s.cfg.implemented 0xCB false = true := hbyte ▸ hh
  obtain ⟨hwait, htick⟩ := tick_prefix hp hbyte (Bool.and_eq_true_iff.mp hhand).1
  exact {
    step_eq := by
      obtain ⟨h, -⟩ | ⟨-, e⟩ := decodeAndExecute_cases (fetch s)
      · exact absurd hpre h
      · rw [step_of_fetch hp ha, e, takeOperands_prefix_CB hop rfl hh]
    ne_prefix_CB := takeOperands_ne_prefix_CB rfl
    fetches := by
      obtain ⟨rest, h⟩ := decode_latched (fetchCb (fetch s))
      obtain ⟨hd, hb⟩ := decode_sound h
      obtain ⟨-, hcb, -⟩ := id hd
      refine fetches_of_bytes 4 (rest := rest) hp ha (hd.wellFormedIn fun _ => hhand) ?_
      rw [encode_cb hcb]
      exact congrArg₂ List.cons hbyte hb
    f_eq := rfl
    ticks_eq := htick
    waits := fun k hpos hlt => by
      obtain rfl : k = 1 := by simp at hlt; omega
      exact hwait }

/-- Every state that fetches latches the pair of an instruction (R114). -/
theorem exists_latched {s : State} (hp : s.phase = .fetch) (ha : s.env.cfg.accepted = true) : ∃ d, Latched s d := by
  by_cases hpre : (takeOperands (fetch s)).1 = .prefix_CB
  · exact ⟨_, latched_fetchCb hp ha hpre⟩
  · exact ⟨_, latched_fetch hp ha hpre⟩

/-! ## The tick level refines the instruction level -/

theorem ticks_add (m n : Nat) : ∀ s : State, ticks (m + n) s = ticks n (ticks m s) := by
  induction m with
  | zero => intro s; rw [Nat.zero_add]; rfl
  | succ m ih => intro s; rw [Nat.succ_add]; exact ih (tick s)

/-- Where the latched pair has a handler the step completes, and so do the calls: those that latch the pair, then those of
the handler's stages. -/
theorem Latched.completes {s d : State} (hl : Latched s d) {h : Handler}
    (hd : dispatch d.cfg.implemented d.cb d.opcode = some h) : ∃ t, step s = .next t ∧
      ticks (t.bus.length + if jumpTaken (takeOperands d).1 s.f then 1 else 0) s = t ∧
      ∀ k, 0 < k → k < t.bus.length + (if jumpTaken (takeOperands d).1 s.f then 1 else 0) →
        (ticks k s).phase = .execute := by
  obtain ⟨he, hm, hj⟩ := runDecoded_of_dispatch hd hl.ne_prefix_CB
  obtain ⟨hticks, hwaits⟩ := ticks_enterHandler hd (handlerStages_plain he d.cfg.modifyCall)
  refine ⟨runAll (d.stagesOf h) (startState h d), ?_, ?_⟩
  · rw [hl.step_eq, hm, startState_eq_fly]
    exact stagesMean_of_encodable he d _
  · rw [hj, ← hl.f_eq, handler_tickCount he]
    refine ⟨by rw [ticks_add, hl.ticks_eq, hticks], fun k hpos hlt => ?_⟩
    obtain hk | hk := Nat.lt_or_ge k d.bus.length
    · exact hl.waits k hpos hk
    · obtain ⟨j, rfl⟩ := Nat.exists_eq_add_of_le hk
      rw [ticks_add, hl.ticks_eq]
      exact hwaits j (by omega)

/-- Where the latched pair has no handler the step faults in the state that the calls which latch the pair lead to. -/
theorem Latched.faults {s d : State} (hl : Latched s d) (hd : dispatch d.cfg.implemented d.cb d.opcode = none) :
    step s = .fault (.unimplementedOpcode (enterHandler d)) ∧
      ticks (enterHandler d).bus.length s = enterHandler d :=
  ⟨hl.step_eq.trans (runDecoded_of_dispatch_none hd), by rw [enterHandler_bus, hl.ticks_eq]⟩

/-- Settles O59: a step and the calls latch the same pair, and the stages of its handler do what the handler means, a call
for each bus access. -/
theorem ticksRefineStep : Obligations.TicksRefineStep := by
  unfold Obligations.TicksRefineStep
  intro s hp
  cases ha : s.env.cfg.accepted with
  | false =>
    rw [step_of_not_accepted (by rw [hp]; nofun) ha]
    exact ⟨fun _ h => (nomatch h), fun _ h => (nomatch h)⟩
  | true =>
    obtain ⟨d, hl⟩ := exists_latched hp ha
    cases hd : dispatch d.cfg.implemented d.cb d.opcode with
    | none =>
      obtain ⟨hs, ht⟩ := hl.faults hd
      rw [hs]
      refine ⟨fun _ h => (nomatch h), fun t h => ?_⟩
      cases h
      exact ht
    | some h =>
      obtain ⟨u, hs, ht⟩ := hl.completes hd
      rw [hs]
      refine ⟨fun t h => ?_, fun _ h => (nomatch h)⟩
      cases h
      exact ⟨(takeOperands d).1, hl.fetches, ht⟩

/-! ## PREFIX CB -/

/-- One read of the environment. -/
theorem keepsMemory_afterRead {s t : State} {a : Addr} (h : t.env = s.env.afterRead a) : KeepsMemory [a] s t := by
  refine ⟨h, by rw [h, Env.afterRead_mem], by rw [h, Env.afterRead_bootEn], fun hx => ?_⟩
  rw [h, Env.afterRead_of_not_external hx]
  exact ⟨rfl, fun _ => rfl⟩

@[simp] theorem reg8_fetch (s : State) (r : Reg8) : (fetch s).reg8 r = s.reg8 r := by cases r <;> rfl
@[simp] theorem reg8_fetchCb (s : State) (r : Reg8) : (fetchCb s).reg8 r = s.reg8 r := by cases r <;> rfl

/-- A CB-table instruction takes no immediate bytes (R111). -/
theorem immediates_of_isCb {i : Instr} (hc : i.isCb = true) : i.immediates = [] := by
  by_cases hu : ∃ op cb, i = .unimplemented op cb
  · obtain ⟨op, cb, rfl⟩ := hu
    rfl
  · have hok := tableEntry_ok i.isCb i.opcode
    obtain he | ⟨f, he, -⟩ | ⟨f, he, -⟩ := tableEntry_of_instr i fun op cb e => hu ⟨op, cb, e⟩ <;> rw [he] at hok
    · obtain ⟨-, -, -, himm, -⟩ := hok
      exact himm
    all_goals
      obtain ⟨-, hf, -⟩ := hok
      exact absurd (hc.symm.trans hf) nofun

/-- The meaning of a CB-table instruction starts two bytes further. -/
theorem afterFetch_pc_of_isCb {i : Instr} (hc : i.isCb = true) (s : State) : (afterFetch i s).pc = s.pc + 2 := by
  have hlen : (encode i).length = 2 := by rw [encode_cb hc, immediates_of_isCb hc]; rfl
  rw [afterFetch, hlen]
  rfl

theorem modify_cb {op : Byte → Byte → Byte × Byte} {k : Operand8} {s t : State} (h : modify op k s = .next t) :
    t.cb = s.cb := by
  obtain ⟨u, hw, rfl⟩ := modify_next h
  obtain ⟨-, -, -, -, hcb, -⟩ := Operand8.write_next hw
  exact hcb.trans (k.read_cb s)

@[simp] theorem Operand16.read_cb (k : Operand16) (s : State) : (k.read s).2.cb = s.cb := by cases k <;> rfl

/-- A handler keeps the CB flag. -/
theorem IsHandler.next_cb {s t : State} {r : Result} (h : IsHandler s r) (hr : r = .next t) : t.cb = s.cb := by
  cases h with
  | noOperation => cases hr; rfl
  | ld8 dst src _ =>
    obtain ⟨u, hw, rfl⟩ := ld8_next hr
    obtain ⟨-, -, -, -, hcb, -⟩ := Operand8.write_next hw
    exact hcb.trans (src.read_cb s)
  | ld16 dst src _ _ =>
    obtain ⟨u, hw, rfl⟩ := ld16_next hr
    obtain ⟨-, -, hcb, -⟩ := Operand16.write_next hw
    exact hcb.trans (src.read_cb s)
  | compareWithA k | bitTest _ k => cases hr; exact k.read_cb s
  | increment k _ | decrement k _ | rotateLeft k _ => exact modify_cb hr
  | increment16 rr _ | decrement16 rr _ => cases hr; exact setReg16_cb s rr _
  | push rr => cases hr; rfl
  | jumpRelative cc e =>
    cases hr
    split <;> rfl

theorem exec_cb {i : Instr} {s t : State} (hi : i ≠ .prefix_CB) (h : exec i s = .next t) : t.cb = s.cb := by
  obtain hh | rfl | ⟨op, cb, rfl⟩ := exec_isHandler i s
  · exact hh.next_cb h
  · exact absurd rfl hi
  · cases h

theorem jrCc_isCb (cc : Cond) (e : Byte) : (jrCc cc e).isCb = false := by cases cc <;> rfl

/-- A CB-table instruction that completes ends past its two bytes, with the CB flag set. -/
theorem exec_isCb_next {i : Instr} {s t : State} (hc : i.isCb = true) (h : exec i (afterFetch i s) = .next t) :
    t.pc = s.pc + 2 ∧ t.cb = true := by
  have hi : i ≠ .prefix_CB := by rintro rfl; cases hc
  have hj : ∀ cc e, i ≠ jrCc cc e := by
    rintro cc e rfl
    exact absurd (hc.symm.trans (jrCc_isCb cc e)) nofun
  exact ⟨((exec_spares hi h).pc hj).trans (afterFetch_pc_of_isCb hc s), (exec_cb hi h).trans hc⟩

/-- A step that fetches PREFIX CB, which has a handler, runs what the byte after it decodes to in the CB table (R146). -/
theorem step_prefix_CB {s : State} {op : Byte} (hp : s.phase = .fetch) (ha : s.env.cfg.accepted = true)
    (hh : hasHandler s.cfg.implemented 0xCB false = true) (hb : bytesAt s.env s.pc 2 = [0xCB, op]) :
    ∃ i, DecodesTo s.cfg.implemented op true i ∧ step s = exec i (afterFetch i s) := by
  obtain ⟨hcb : s.env.peek s.pc = 0xCB, hb'⟩ := List.cons.inj hb
  obtain ⟨rfl, -⟩ := List.cons.inj hb'
  have hpre : (takeOperands (fetch s)).1 = .prefix_CB :=
    takeOperands_eq_prefix_CB.mpr ⟨hcb, rfl, by rw [fetch_opcode, hcb]; exact hh⟩
  have hl := latched_fetchCb hp ha hpre
  exact ⟨_, takeOperands_decodesTo (fetchCb (fetch s)), step_fetches hl.fetches hl.ne_prefix_CB⟩

/-- Settles O8: the meaning of PREFIX CB is the latch of the next byte; a step runs what that byte decodes to, which answers
a next state unless it is unimplemented. -/
theorem prefixCbSelectsSecondTable : Obligations.PrefixCbSelectsSecondTable := by
  unfold Obligations.PrefixCbSelectsSecondTable
  refine ⟨fun s => ⟨fetchCb s, rfl, rfl, rfl, rfl, rfl, rfl, rfl, reg8_fetchCb s, rfl, rfl, rfl, rfl,
    keepsMemory_afterRead rfl⟩, ?_⟩
  intro s op hp ha hh hb
  obtain ⟨i, ⟨rfl, hcb, hu⟩, hs⟩ := step_prefix_CB hp ha hh hb
  refine ⟨fun hop => ⟨i, hcb, rfl, hs, ?_⟩, fun hop => ?_⟩
  · obtain ⟨t, ht⟩ | ⟨op', cb', rfl, -⟩ := exec_answers i (afterFetch i s)
    · exact ⟨t, hs.trans ht, exec_isCb_next hcb ht⟩
    · cases hcb
      exact absurd (hop.symm.trans (hu.mp rfl)) nofun
  · have hpc := afterFetch_pc_of_isCb hcb s
    have hi := hu.mpr hop
    rw [hi] at hs hpc ⊢
    exact ⟨_, hs, hpc, rfl⟩

/-! ## Fetch, the decoded step, the faulted core -/

/-- Settles O6: the fields of `fetch`, and its one read. -/
theorem fetchLatchesOpcode : Obligations.FetchLatchesOpcode := by
  unfold Obligations.FetchLatchesOpcode
  intro s
  exact ⟨rfl, rfl, rfl, rfl, rfl, rfl, reg8_fetch s, rfl, rfl, rfl, keepsMemory_afterRead rfl⟩

/-- The two ways of decoding a whole instruction: where the first byte is PREFIX CB and a byte follows, that byte in the CB
table; else the first byte in the base table (R112). -/
theorem decodeInstrIn_cases (m : Implemented) (bytes : List Byte) :
    (∃ op tail, decode m false bytes = .ok (.prefix_CB, op :: tail) ∧
      decodeInstrIn m bytes = decode m true (op :: tail)) ∨
    ((∀ op tail, decode m false bytes ≠ .ok (.prefix_CB, op :: tail)) ∧
      decodeInstrIn m bytes = decode m false bytes) := by
  unfold decodeInstrIn
  split
  · next op tail h => exact .inl ⟨op, tail, h, rfl⟩
  · next h => exact .inr ⟨h, rfl⟩

/-- What a whole instruction decodes to is well formed and encodes to the bytes taken (R114). -/
theorem decodeInstrIn_sound {m : Implemented} {bytes rest : List Byte} {i : Instr}
    (h : decodeInstrIn m bytes = .ok (i, rest)) : bytes = encode i ++ rest ∧ i.wellFormedIn m = true := by
  obtain ⟨op, tail, hpre, e⟩ | ⟨-, e⟩ := decodeInstrIn_cases m bytes <;> rw [e] at h
  · obtain ⟨⟨-, -, hu⟩, rfl⟩ := decode_sound hpre
    have hh : hasHandler m 0xCB false = true := Bool.eq_true_of_not_eq_false fun hf => nomatch hu.mpr hf
    obtain ⟨hd, hb⟩ := decode_sound h
    obtain ⟨-, hcb, -⟩ := id hd
    exact ⟨by rw [encode_cb hcb, hb]; rfl, hd.wellFormedIn fun _ => hh⟩
  · obtain ⟨hd, rfl⟩ := decode_sound h
    obtain ⟨-, hcb, -⟩ := id hd
    exact ⟨by rw [encode_base hcb]; rfl, hd.wellFormedIn nofun⟩

/-- PREFIX CB stands alone only where no byte follows it. -/
theorem decodeInstrIn_ne_prefix_CB {m : Implemented} {b1 b2 : Byte} {tail rest : List Byte} {i : Instr}
    (h : decodeInstrIn m (b1 :: b2 :: tail) = .ok (i, rest)) : i ≠ .prefix_CB := by
  rintro rfl
  obtain ⟨op, tail', -, e⟩ | ⟨hn, e⟩ := decodeInstrIn_cases m (b1 :: b2 :: tail) <;> rw [e] at h
  · obtain ⟨⟨-, hcb, -⟩, -⟩ := decode_sound h
    cases hcb
  · obtain ⟨-, hb⟩ := decode_sound h
    cases hb
    exact hn _ _ h

/-- Settles O7: the decoder's bytes are the instruction's, so the step fetches it. -/
theorem stepRunsDecoded : Obligations.StepRunsDecoded := by
  unfold Obligations.StepRunsDecoded
  intro s i rest hp ha h
  obtain ⟨hb, hw⟩ := decodeInstrIn_sound h
  have hf : Fetches i s := fetches_of_bytes 3 hp ha hw hb
  exact ⟨hw, hf, step_fetches hf (decodeInstrIn_ne_prefix_CB h)⟩

theorem tick_faulted {s : State} (h : s.phase = .faulted) : tick s = s := by
  simp only [tick, h]

/-- Settles O11: a call leaves a faulted core as it is, by induction so do any number; a step has a case for the phase. -/
theorem faultedIsTerminal : Obligations.FaultedIsTerminal := by
  unfold Obligations.FaultedIsTerminal
  intro s h
  refine ⟨fun n => ?_, by simp only [step, h]⟩
  induction n with
  | zero => rfl
  | succ n ih => rw [ticks, tick_faulted h, ih]

end Sys2Proof.Machine

/-! The family of 41_operands.md: no instruction writes an immediate (O13), and an immediate read is pending until its last
tick (O58). For O13 a meaning answers no fault but that of R331 (`exec_answers`), and a step from Fetch is a meaning; for O58
each tick of an immediate is one `Imm8` with the byte kept in a scratch field. -/

namespace Sys2Proof.Machine

/-! ## Writes of an immediate -/

/-- No meaning raises the protocol-misuse fault (R332). -/
theorem exec_ne_protocolMisuse (i : Instr) (s t : State) : exec i s ≠ .fault (.protocolMisuse t) := by
  obtain ⟨u, h⟩ | ⟨op, cb, -, h⟩ := exec_answers i s <;> rw [h] <;> nofun

/-- No step from Fetch raises it: where the configuration is accepted, the step is the meaning of a latched pair. -/
theorem step_fetch_ne_protocolMisuse {s : State} (hp : s.phase = .fetch) (t : State) :
    step s ≠ .fault (.protocolMisuse t) := by
  cases ha : s.env.cfg.accepted with
  | true =>
    obtain ⟨d, hd⟩ := exists_latched hp ha
    rw [hd.step_eq]
    exact exec_ne_protocolMisuse _ _ t
  | false =>
    rw [step_of_not_accepted (by rw [hp]; nofun) ha]
    nofun

/-- Settles O13: a write of an immediate is `raiseMisuse`, which enters the fault of the pair in flight; no meaning answers
that fault, so neither does a step from Fetch. -/
theorem noInstructionWritesImmediate : Obligations.NoInstructionWritesImmediate := by
  unfold Obligations.NoInstructionWritesImmediate
  exact ⟨fun _ _ _ => ⟨_, rfl, rfl, rfl⟩, fun _ _ _ => ⟨_, rfl, rfl⟩, exec_ne_protocolMisuse,
    fun _ t hp => step_fetch_ne_protocolMisuse hp t⟩

/-! ## Reads of an immediate -/

/-- `Imm8` has one tick, which reads the byte at PC and answers it (R163). -/
theorem read8Tick_imm8 (s : State) :
    read8Tick .imm8 0 s = (.ready (imm8 s).1, { (imm8 s).2 with scratch8 := (imm8 s).1 }) :=
  operatorTick_ready (stages := read8Stages .imm8) (done := 0) (st := .immByte) rfl s

/-- The first tick of `Imm16` reads the low byte and holds it (R164). -/
theorem read16Tick_imm16_low (s : State) :
    read16Tick .imm16 0 s = (.pending, { (imm8 s).2 with scratch8 := (imm8 s).1 }) :=
  operatorTick_pending (stages := read16Stages .imm16) (done := 0) (st := .immByte) rfl s

/-- The second tick of `Imm16` reads the high byte and answers the word (R164). -/
theorem read16Tick_imm16_high (s : State) :
    read16Tick .imm16 1 s =
      (.ready (join (imm8 s).1 s.scratch8), { (imm8 s).2 with scratch16 := join (imm8 s).1 s.scratch8 }) :=
  operatorTick_ready (stages := read16Stages .imm16) (done := 1) (st := .immHigh) rfl s

/-- Settles O58: the ticks of `Imm8` and `Imm16` one by one, on the two bytes that the environment answers. -/
theorem immediatesPendingThenReady : Obligations.ImmediatesPendingThenReady := by
  unfold Obligations.ImmediatesPendingThenReady
  intro s b1 b2 hb
  obtain ⟨rfl, hb'⟩ := List.cons.inj hb
  obtain ⟨rfl, -⟩ := List.cons.inj hb'
  rw [read8Tick_imm8, read16Tick_imm16_low, read16Tick_imm16_high]
  exact ⟨rfl, rfl, rfl, rfl, rfl, rfl, rfl, BitVec.add_assoc s.pc 1 1, List.append_assoc s.bus _ _⟩

end Sys2Proof.Machine

/-! The family of 42_nop.md: NOP (O32). What every instruction rule needs stands first: an instruction completes in a
controller call for each of its bytes and each data access, one more for a taken JR (`runsIn_of_exec`, from O59), and "fetch
next" alone is inside every frame. -/

namespace Sys2Proof.Machine

/-! ## How many calls an instruction takes -/

/-- Decode finds a base-table instruction after its opcode byte. -/
theorem Fetches.takeOperands_base {i : Instr} {s : State} (h : Fetches i s) (hc : i.isCb = false) :
    (takeOperands (fetch s)).1 = i := by
  obtain ⟨-, -, hw, hb⟩ := h
  rw [encode_base hc] at hb
  obtain ⟨hop, him⟩ := List.cons.inj hb
  rw [takeOperands_eq (s := fetch s) hw hc.symm hop him]

/-- Decode finds PREFIX CB, then the CB-table instruction after it (R146). -/
theorem Fetches.takeOperands_cb {i : Instr} {s : State} (h : Fetches i s) (hc : i.isCb = true) :
    (takeOperands (fetch s)).1 = .prefix_CB ∧ (takeOperands (fetchCb (fetch s))).1 = i := by
  obtain ⟨-, -, hw, hb⟩ := h
  rw [encode_cb hc] at hb
  obtain ⟨hcb, hb'⟩ := List.cons.inj hb
  obtain ⟨hop, him⟩ := List.cons.inj hb'
  constructor
  · rw [takeOperands_eq (s := fetch s) (prefix_CB_wellFormedIn hw hc) rfl hcb rfl]
  · rw [takeOperands_eq (s := fetchCb (fetch s)) hw hc.symm hop him]

/-- A state that fetches an instruction latches the pair of that instruction. -/
theorem Fetches.latched {i : Instr} {s : State} (h : Fetches i s) (hi : i ≠ .prefix_CB) :
    ∃ d, Latched s d ∧ (takeOperands d).1 = i := by
  obtain ⟨hp, ha, -, -⟩ := id h
  cases hc : i.isCb with
  | false =>
    have ht := h.takeOperands_base hc
    exact ⟨_, latched_fetch hp ha (ht ▸ hi), ht⟩
  | true =>
    obtain ⟨hpre, ht⟩ := h.takeOperands_cb hc
    exact ⟨_, latched_fetchCb hp ha hpre, ht⟩

/-- A step that completes the instruction it fetches is a call for each event on the bus, and one more for a taken JR
(R147). -/
theorem Fetches.ticks_eq {i : Instr} {s t : State} (h : Fetches i s) (hi : i ≠ .prefix_CB) (ht : step s = .next t) :
    ticks (t.bus.length + if jumpTaken i s.f then 1 else 0) s = t := by
  obtain ⟨d, hl, rfl⟩ := h.latched hi
  cases hd : dispatch d.cfg.implemented d.cb d.opcode with
  | none =>
    obtain ⟨hf, -⟩ := hl.faults hd
    exact absurd (ht.symm.trans hf) nofun
  | some k =>
    obtain ⟨u, hs, hticks, -⟩ := hl.completes hd
    cases ht.symm.trans hs
    exact hticks

@[simp] theorem readEvents_length (bytes : List Byte) : ∀ a : Addr, (readEvents a bytes).length = bytes.length := by
  induction bytes with
  | nil => intro a; rfl
  | cons v rest ih => intro a; exact congrArg (· + 1) (ih (a + 1))

/-- An instruction whose meaning answers a next state completes in a call for each of its bytes and each data access, and
one more for a taken JR. -/
theorem runsIn_of_exec {i : Instr} {s t : State} {evs : List BusEvent} (hi : i ≠ .prefix_CB) (hx : exec i s = .next t)
    (hev : DataEvents evs s t) :
    RunsIn ((encode i).length + evs.length + if jumpTaken i s.f then 1 else 0) i s t := by
  refine ⟨hx, ?_⟩
  rintro s0 hf rfl
  have hs : step s0 = .next t := (step_fetches hf hi).trans hx
  have hbus : t.bus.length = (encode i).length + evs.length := by
    rw [hev, List.length_append]
    exact congrArg (· + evs.length) (readEvents_length (encode i) s0.pc)
  exact ⟨hs, hbus ▸ hf.ticks_eq hi hs⟩

/-! ## What "fetch next" alone keeps -/

theorem frame_complete (s : State) : Frame [] [] s (complete s) :=
  ⟨fun r _ => reg8_complete s r, fun _ _ => rfl, rfl, rfl, rfl, rfl, rfl, rfl, rfl, rfl, rfl, rfl, rfl, rfl⟩

theorem keepsPointers_complete (s : State) : KeepsPointers s (complete s) := ⟨complete_sp s, complete_pc s⟩

/-- An environment nothing was done to. -/
theorem keepsMemory_of_env_eq {s t : State} (h : t.env = s.env) : KeepsMemory [] s t := by
  refine ⟨h, ?_, ?_, fun _ => ⟨h, fun a => ?_⟩⟩ <;> rw [h]

theorem dataEvents_of_bus_eq {s t : State} (h : t.bus = s.bus) : DataEvents [] s t :=
  h.trans (List.append_nil s.bus).symm

/-! ## NOP -/

theorem exec_nop (s : State) : exec .nop s = .next (complete s) := rfl

/-- Settles O32: NOP is "fetch next" and no more, so it takes the one call of its byte. -/
theorem nopCompletes : Obligations.NopCompletes := by
  unfold Obligations.NopCompletes
  refine ⟨encode_base rfl, fun s => ⟨complete s, ?_, frame_complete s, keepsPointers_complete s,
    keepsMemory_of_env_eq (complete_env s), dataEvents_of_bus_eq (complete_bus s)⟩⟩
  exact runsIn_of_exec (i := .nop) nofun (exec_nop s) (dataEvents_of_bus_eq (complete_bus s))

end Sys2Proof.Machine

/-! The family of 43_ld8.md: the 8-bit loads (O33 to O40). Each instruction is `LD dst, src` of R198 over operands of its
own (`IsLoad`), and the operands say what the load does: which registers it writes, which one bus access it makes, and so
how many calls it takes. A load into a register (`IsLoad.loads`) and one into memory (`IsLoad.stores`) are therefore each
proved once, and the obligations are read off. -/

namespace Sys2Proof.Machine

/-! ## The environment after reads and one write -/

theorem readAll_of_not_external {e : Env} (h : e.cfg.bus ≠ .external) (reads : List Addr) : readAll e reads = e := by
  induction reads with
  | nil => rfl
  | cons a rest ih => rw [readAll, Env.read_env, Env.afterRead_of_not_external h, ih]

/-- One write, after any reads. -/
theorem stores_write {s t : State} {reads : List Addr} {a : Addr} {v : Byte}
    (h : t.env = (readAll s.env reads).write a v) : Stores reads [(a, v)] s t := by
  refine ⟨h, fun hx b hb => ?_, fun hwf w hw hk b hb => ?_⟩
  · have hr : ¬Reaches s.env a v b := hb (a, v) (List.mem_singleton.mpr rfl)
    obtain ⟨hcell, hboot⟩ := not_or.mp hr
    rw [h, readAll_of_not_external hx]
    exact s.env.peek_write_other a v b hx (not_and.mp hcell) fun hd =>
      Bool.eq_false_of_not_eq_true (not_and.mp hboot hd)
  · obtain rfl := List.mem_singleton.mp hw
    obtain ⟨k, hk⟩ := Option.ne_none_iff_exists'.mp hk
    rw [h, readAll_of_not_external (Env.not_external hk)]
    exact Env.peek_write_same hwf v hk (hb.trans hk)

/-! ## The registers an operand's access writes -/

/-- A pair write changes the halves of the pair and no other register. -/
theorem reg8_setReg16 (s : State) {rr : Reg16} {r : Reg8} (h : r ∉ halves rr) (w : Word) :
    (s.setReg16 rr w).reg8 r = s.reg8 r := by
  cases rr <;> cases r <;> first | rfl | exact absurd (by decide) h

/-- The registers that a read of the operand writes: HL moves for `IndInc` and `IndDec` (R167). -/
def Operand8.readRegs : Operand8 → List Reg8
  | .indInc | .indDec => halves .hl
  | _ => []

/-- The registers that a write of the operand writes. -/
def Operand8.writeRegs : Operand8 → List Reg8
  | .reg r => [r]
  | k => k.readRegs

theorem Operand8.read_reg8_of_not_mem {k : Operand8} {r : Reg8} (s : State) (h : r ∉ k.readRegs) :
    (k.read s).2.reg8 r = s.reg8 r := by
  cases k with
  | indInc | indDec => exact (reg8_setReg16 _ h _).trans (reg8_memRead _ s r)
  | _ => exact Operand8.read_reg8 _ s (by nofun) (by nofun) r

theorem Operand8.write_reg8_of_not_mem {k : Operand8} {v : Byte} {s t : State} {r : Reg8} (hw : k.write v s = .next t)
    (h : r ∉ k.writeRegs) : t.reg8 r = s.reg8 r := by
  cases k <;> cases hw
  case reg q => rw [reg8_setReg8, if_neg (List.mem_singleton.not.mp h)]
  case indInc | indDec => exact (reg8_setReg16 _ h _).trans (reg8_memWrite _ v s r)
  all_goals exact reg8_memWrite _ v s r

/-- HL after an access of the operand (R167). -/
def Operand8.hlAfter (s : State) : Operand8 → Word
  | .indInc => s.reg16 .hl + 1
  | .indDec => s.reg16 .hl - 1
  | _ => s.reg16 .hl

theorem Operand8.read_hl (k : Operand8) (s : State) : (k.read s).2.reg16 .hl = k.hlAfter s := by
  cases k with
  | indInc | indDec => exact reg16_setReg16 _ .hl _ nofun
  | _ => rfl

theorem Operand8.write_hl {k : Operand8} {v : Byte} {s t : State} {a : Addr} (hw : k.write v s = .next t)
    (ha : k.addr s = some a) : t.reg16 .hl = k.hlAfter s := by
  cases k <;> cases hw
  case reg => cases ha
  case indInc | indDec => exact reg16_setReg16 _ .hl _ nofun
  all_goals rfl

/-- An operand that is not in memory is read without a trace. -/
theorem Operand8.read_of_addr_none {k : Operand8} {s : State} (h : k.addr s = none) :
    (k.read s).2 = s ∧ k.readRegs = [] := by
  cases k <;> first | exact ⟨rfl, rfl⟩ | cases h

/-! ## The bus reads of an operand -/

/-- The events of reading the operand: one read at its effective address, if it has one (R173). -/
def Operand8.dataReads (s : State) (k : Operand8) : List BusEvent :=
  (k.addr s).toList.map fun a => .rd a (s.env.peek a)

theorem keepsMemory_read {k : Operand8} {s t : State} (h : t.env = (k.read s).2.env) :
    KeepsMemory (k.addr s).toList s t := by
  rw [Operand8.read_env] at h
  cases ha : k.addr s with
  | none =>
    rw [ha] at h
    exact keepsMemory_of_env_eq h
  | some a =>
    rw [ha] at h
    exact keepsMemory_afterRead h

theorem dataEvents_read {k : Operand8} {s t : State} (h : t.bus = (k.read s).2.bus) :
    DataEvents (k.dataReads s) s t := by
  rw [Operand8.read_bus] at h
  unfold Operand8.dataReads
  cases ha : k.addr s with
  | none =>
    rw [ha] at h
    exact dataEvents_of_bus_eq h
  | some a =>
    rw [ha] at h
    exact h

/-! ## What a load writes and keeps -/

/-- A load writes the registers that its two accesses write, and no flag. -/
theorem ld8_writes {dst src : Operand8} {s t : State} (h : ld8 dst src s = .next t) :
    Frame (dst.writeRegs ++ src.readRegs) [] s t := by
  obtain ⟨u, hw, rfl⟩ := ld8_next h
  obtain ⟨hf, -, -, hop, hcb, hfa, hfault, -⟩ := Operand8.write_next hw
  obtain ⟨hcfg, henv⟩ := Prod.mk.inj ((Operand8.write_config hw).trans (src.read_config s))
  have hreg (r : Reg8) (hr : r ∉ dst.writeRegs ++ src.readRegs) : (complete u).reg8 r = s.reg8 r := by
    obtain ⟨hd, hs⟩ := not_or.mp (List.mem_append.not.mp hr)
    rw [reg8_complete, Operand8.write_reg8_of_not_mem hw hd, Operand8.read_reg8_of_not_mem s hs]
  have hf' : (complete u).f = s.f := hf.trans (src.read_f s)
  exact ⟨hreg, fun _ _ => by rw [hf'], by rw [hf'], hop.trans (src.read_opcode s), hcb.trans (src.read_cb s),
    hfa.trans (src.read_fetchAddr s), hfault.trans (src.read_fault s), hcfg, henv, rfl, rfl, rfl, rfl, rfl⟩

theorem ld8_keepsPointers {dst src : Operand8} {s t : State} (h : ld8 dst src s = .next t) : KeepsPointers s t :=
  (ld8_frame h).2

/-- An instruction with these bytes that is `LD dst, src` (R198). -/
structure IsLoad (i : Instr) (bytes : List Byte) (dst src : Operand8) : Prop where
  encode_eq : encode i = bytes
  exec_eq : ∀ s, exec i s = ld8 dst src s
  ne_prefix_CB : i ≠ .prefix_CB
  no_jump : ∀ f, jumpTaken i f = false

/-- A load takes a call for each of its bytes and each data access. -/
theorem IsLoad.runsIn {i : Instr} {bytes : List Byte} {dst src : Operand8} (h : IsLoad i bytes dst src) {s t : State}
    {evs : List BusEvent} (ht : ld8 dst src s = .next t) (hev : DataEvents evs s t) :
    RunsIn (bytes.length + evs.length) i s t := by
  have hr := runsIn_of_exec h.ne_prefix_CB ((h.exec_eq s).trans ht) hev
  simpa [h.encode_eq, h.no_jump] using hr

/-- A load into a register: it holds what the source reads, and the one data access is the source's, if it has one. -/
theorem IsLoad.loads {i : Instr} {bytes : List Byte} {q : Reg8} {src : Operand8} (h : IsLoad i bytes (.reg q) src)
    (s : State) : ∃ t, RunsIn (bytes.length + (src.dataReads s).length) i s t ∧ t.reg8 q = (src.read s).1 ∧
      Frame (q :: src.readRegs) [] s t ∧ KeepsPointers s t ∧ KeepsMemory (src.addr s).toList s t ∧
      DataEvents (src.dataReads s) s t := by
  have ht : ld8 (.reg q) src s = .next (complete ((src.read s).2.setReg8 q (src.read s).1)) := rfl
  have hev := dataEvents_read (setReg8_bus (src.read s).2 q (src.read s).1)
  have hmem := keepsMemory_read (setReg8_env (src.read s).2 q (src.read s).1)
  exact ⟨_, h.runsIn ht hev, by simp, ld8_writes ht, ld8_keepsPointers ht, hmem, hev⟩

/-- A load into memory from a register or an immediate: the one data access is the write. -/
theorem IsLoad.stores {i : Instr} {bytes : List Byte} {dst src : Operand8} (h : IsLoad i bytes dst src) {s : State}
    {a : Addr} (hs : src.addr s = none) (hd : dst.addr s = some a) : ∃ t, RunsIn (bytes.length + 1) i s t ∧
      Stores [] [(a, (src.read s).1)] s t ∧ Frame dst.writeRegs [] s t ∧ KeepsPointers s t ∧
      DataEvents [.wr a (src.read s).1] s t := by
  obtain ⟨hread, hregs⟩ := Operand8.read_of_addr_none hs
  have hwritable : ∀ n, dst ≠ .imm8 n := by rintro n rfl; cases hd
  obtain ⟨u, hw⟩ := Operand8.write_writable hwritable (src.read s).1 (src.read s).2
  have ht : ld8 dst src s = .next (complete u) := thenComplete_next.mpr ⟨u, hw, rfl⟩
  rw [hread] at hw
  obtain ⟨-, -, -, -, -, -, -, -, hacc⟩ := Operand8.write_next hw
  rw [hd] at hacc
  obtain ⟨henv, hbus⟩ := hacc
  have hframe := ld8_writes ht
  rw [hregs, List.append_nil] at hframe
  exact ⟨_, h.runsIn ht hbus, stores_write henv, hframe, ld8_keepsPointers ht, hbus⟩

/-! ## Loads between registers and immediates (R200, R201) -/

theorem isLoad_ldRR (dst r : Reg8) : IsLoad (ldRR dst r) [fieldsXyz 1 dst.field r.field] (.reg dst) (.reg r) where
  encode_eq := encode_ldRR dst r
  exec_eq := exec_ldRR dst r
  ne_prefix_CB := by cases dst <;> cases r <;> nofun
  no_jump := by cases dst <;> cases r <;> exact fun _ => rfl

theorem isLoad_ldRN (dst : Reg8) (n : Byte) : IsLoad (ldRN dst n) [fieldsXyz 0 dst.field 6, n] (.reg dst) (.imm8 n) where
  encode_eq := encode_ldRN dst n
  exec_eq := exec_ldRN dst n
  ne_prefix_CB := by cases dst <;> nofun
  no_jump := by cases dst <;> exact fun _ => rfl

/-- Settles O33: a load whose two operands are registers makes no access. -/
theorem loadRegisterFromRegister : Obligations.LoadRegisterFromRegister := by
  unfold Obligations.LoadRegisterFromRegister
  exact fun dst r => ⟨encode_ldRR dst r, (isLoad_ldRR dst r).loads⟩

/-- Settles O34: the immediate is taken with the instruction's bytes, so the load makes no access. -/
theorem loadRegisterFromImmediate : Obligations.LoadRegisterFromImmediate := by
  unfold Obligations.LoadRegisterFromImmediate
  exact fun dst n => ⟨encode_ldRN dst n, (isLoad_ldRN dst n).loads⟩

/-! ## Loads through HL, BC and DE (R202 to R208) -/

theorem isLoad_ldRAtHL (dst : Reg8) : IsLoad (ldRAtHL dst) [fieldsXyz 1 dst.field 6] (.reg dst) (.ind .hl) where
  encode_eq := encode_ldRAtHL dst
  exec_eq := exec_ldRAtHL dst
  ne_prefix_CB := by cases dst <;> nofun
  no_jump := by cases dst <;> exact fun _ => rfl

theorem isLoad_ldAtHLR (r : Reg8) : IsLoad (ldAtHLR r) [fieldsXyz 1 6 r.field] (.ind .hl) (.reg r) where
  encode_eq := encode_ldAtHLR r
  exec_eq := exec_ldAtHLR r
  ne_prefix_CB := by cases r <;> nofun
  no_jump := by cases r <;> exact fun _ => rfl

theorem isLoad_ld_atHL_n (n : Byte) : IsLoad (.ld_atHL_n n) [0x36, n] (.ind .hl) (.imm8 n) :=
  ⟨rfl, fun _ => rfl, nofun, fun _ => rfl⟩

theorem isLoad_ld_A_atBC : IsLoad .ld_A_atBC [0x0A] (.reg .a) (.ind .bc) := ⟨rfl, fun _ => rfl, nofun, fun _ => rfl⟩

theorem isLoad_ld_A_atDE : IsLoad .ld_A_atDE [0x1A] (.reg .a) (.ind .de) := ⟨rfl, fun _ => rfl, nofun, fun _ => rfl⟩

theorem isLoad_ld_atBC_A : IsLoad .ld_atBC_A [0x02] (.ind .bc) (.reg .a) := ⟨rfl, fun _ => rfl, nofun, fun _ => rfl⟩

theorem isLoad_ld_atDE_A : IsLoad .ld_atDE_A [0x12] (.ind .de) (.reg .a) := ⟨rfl, fun _ => rfl, nofun, fun _ => rfl⟩

/-- Settles O35: the source is read before the destination is written, so its address is the old HL. -/
theorem loadRegisterFromHL : Obligations.LoadRegisterFromHL := by
  unfold Obligations.LoadRegisterFromHL
  exact fun dst => ⟨encode_ldRAtHL dst, (isLoad_ldRAtHL dst).loads⟩

/-- Settles O36: the two forms differ in their bytes and in where the byte to store comes from. -/
theorem storeThroughHL : Obligations.StoreThroughHL := by
  unfold Obligations.StoreThroughHL
  exact ⟨fun r => ⟨encode_ldAtHLR r, fun _ => (isLoad_ldAtHLR r).stores rfl rfl⟩,
    fun n => ⟨rfl, fun _ => (isLoad_ld_atHL_n n).stores rfl rfl⟩⟩

/-- Settles O37: the pairs BC and DE are not moved by the access. -/
theorem accumulatorThroughBCAndDE : Obligations.AccumulatorThroughBCAndDE := by
  unfold Obligations.AccumulatorThroughBCAndDE
  exact ⟨rfl, rfl, rfl, rfl, fun s => ⟨isLoad_ld_A_atBC.loads s, isLoad_ld_A_atDE.loads s,
    isLoad_ld_atBC_A.stores rfl rfl, isLoad_ld_atDE_A.stores rfl rfl⟩⟩

/-! ## Loads that move HL (R209 to R212) -/

theorem isLoad_ld_atHLinc_A : IsLoad .ld_atHLinc_A [0x22] .indInc (.reg .a) :=
  ⟨rfl, fun _ => rfl, nofun, fun _ => rfl⟩

theorem isLoad_ld_atHLdec_A : IsLoad .ld_atHLdec_A [0x32] .indDec (.reg .a) :=
  ⟨rfl, fun _ => rfl, nofun, fun _ => rfl⟩

theorem isLoad_ld_A_atHLinc : IsLoad .ld_A_atHLinc [0x2A] (.reg .a) .indInc :=
  ⟨rfl, fun _ => rfl, nofun, fun _ => rfl⟩

theorem isLoad_ld_A_atHLdec : IsLoad .ld_A_atHLdec [0x3A] (.reg .a) .indDec :=
  ⟨rfl, fun _ => rfl, nofun, fun _ => rfl⟩

/-- A load into A leaves HL where the source's access leaves it. -/
theorem IsLoad.hl_of_loadA {i : Instr} {bytes : List Byte} {src : Operand8} (h : IsLoad i bytes (.reg .a) src)
    {s t : State} {n : Nat} (hr : RunsIn n i s t) : t.reg16 .hl = src.hlAfter s := by
  obtain ⟨hx, -⟩ := hr
  obtain ⟨u, hw, rfl⟩ := ld8_next ((h.exec_eq s).symm.trans hx)
  cases hw
  exact src.read_hl s

/-- A load of a register into memory leaves HL where the destination's access leaves it. -/
theorem IsLoad.hl_of_storeReg {i : Instr} {bytes : List Byte} {dst : Operand8} {r : Reg8}
    (h : IsLoad i bytes dst (.reg r)) {s t : State} {a : Addr} (hd : dst.addr s = some a) {n : Nat}
    (hr : RunsIn n i s t) : t.reg16 .hl = dst.hlAfter s := by
  obtain ⟨hx, -⟩ := hr
  obtain ⟨u, hw, rfl⟩ := ld8_next ((h.exec_eq s).symm.trans hx)
  exact (reg16_complete u .hl).trans (Operand8.write_hl hw hd)

/-- `loads` for A, with what becomes of HL. -/
theorem IsLoad.loadsA_hl {i : Instr} {bytes : List Byte} {src : Operand8} (h : IsLoad i bytes (.reg .a) src)
    (s : State) : ∃ t, RunsIn (bytes.length + (src.dataReads s).length) i s t ∧ t.a = (src.read s).1 ∧
      t.reg16 .hl = src.hlAfter s ∧ Frame (.a :: src.readRegs) [] s t ∧ KeepsPointers s t ∧
      KeepsMemory (src.addr s).toList s t ∧ DataEvents (src.dataReads s) s t := by
  obtain ⟨t, hr, hv, hrest⟩ := h.loads s
  exact ⟨t, hr, hv, h.hl_of_loadA hr, hrest⟩

/-- `stores` for a register, with what becomes of HL. -/
theorem IsLoad.storesReg_hl {i : Instr} {bytes : List Byte} {dst : Operand8} {r : Reg8}
    (h : IsLoad i bytes dst (.reg r)) {s : State} {a : Addr} (hd : dst.addr s = some a) :
    ∃ t, RunsIn (bytes.length + 1) i s t ∧ t.reg16 .hl = dst.hlAfter s ∧ Stores [] [(a, s.reg8 r)] s t ∧
      Frame dst.writeRegs [] s t ∧ KeepsPointers s t ∧ DataEvents [.wr a (s.reg8 r)] s t := by
  obtain ⟨t, hr, hrest⟩ := h.stores rfl hd
  exact ⟨t, hr, h.hl_of_storeReg hd hr, hrest⟩

/-- Settles O38: the access is at the old HL, and HL is then where that access leaves it. -/
theorem accumulatorPostModify : Obligations.AccumulatorPostModify := by
  unfold Obligations.AccumulatorPostModify
  exact ⟨rfl, rfl, rfl, rfl, fun s => ⟨isLoad_ld_atHLinc_A.storesReg_hl rfl, isLoad_ld_atHLdec_A.storesReg_hl rfl,
    isLoad_ld_A_atHLinc.loadsA_hl s, isLoad_ld_A_atHLdec.loadsA_hl s⟩⟩

/-! ## Loads through the high page and at an absolute address (R213 to R218) -/

/-- The low byte of a high-page address carries into nothing (R168, R170). -/
theorem highPage_toNat (n : Byte) : (highPage n).toNat = 0xFF00 + n.toNat := by
  have hor : 2 ^ 8 * 0xFF + n.toNat = 2 ^ 8 * 0xFF ||| n.toNat := Nat.two_pow_add_eq_or_of_lt n.isLt 0xFF
  rw [highPage, BitVec.toNat_or, BitVec.toNat_setWidth_of_le (by decide)]
  exact hor.symm

theorem isLoad_ld_atC_A : IsLoad .ld_atC_A [0xE2] .highC (.reg .a) := ⟨rfl, fun _ => rfl, nofun, fun _ => rfl⟩

theorem isLoad_ld_A_atC : IsLoad .ld_A_atC [0xF2] (.reg .a) .highC := ⟨rfl, fun _ => rfl, nofun, fun _ => rfl⟩

theorem isLoad_ldh_atN_A (n : Byte) : IsLoad (.ldh_atN_A n) [0xE0, n] (.direct8High n) (.reg .a) :=
  ⟨rfl, fun _ => rfl, nofun, fun _ => rfl⟩

theorem isLoad_ldh_A_atN (n : Byte) : IsLoad (.ldh_A_atN n) [0xF0, n] (.reg .a) (.direct8High n) :=
  ⟨rfl, fun _ => rfl, nofun, fun _ => rfl⟩

theorem isLoad_ld_atNN_A (nn : Word) : IsLoad (.ld_atNN_A nn) [0xEA, lo8 nn, hi8 nn] (.direct8Abs nn) (.reg .a) :=
  ⟨rfl, fun _ => rfl, nofun, fun _ => rfl⟩

theorem isLoad_ld_A_atNN (nn : Word) : IsLoad (.ld_A_atNN nn) [0xFA, lo8 nn, hi8 nn] (.reg .a) (.direct8Abs nn) :=
  ⟨rfl, fun _ => rfl, nofun, fun _ => rfl⟩

/-- Settles O39: the forms through C and through n differ in their bytes alone. -/
theorem highPageLoadsAndStores : Obligations.HighPageLoadsAndStores := by
  unfold Obligations.HighPageLoadsAndStores
  exact ⟨rfl, rfl, fun n => ⟨rfl, rfl, highPage_toNat n⟩, fun s => ⟨isLoad_ld_atC_A.stores rfl rfl,
    isLoad_ld_A_atC.loads s, fun n => (isLoad_ldh_atN_A n).stores rfl rfl, fun n => (isLoad_ldh_A_atN n).loads s⟩⟩

/-- Settles O40: the address is the instruction's own word. -/
theorem absoluteLoadsAndStores : Obligations.AbsoluteLoadsAndStores := by
  unfold Obligations.AbsoluteLoadsAndStores
  exact fun nn => ⟨rfl, rfl, fun s => ⟨(isLoad_ld_atNN_A nn).stores rfl rfl, (isLoad_ld_A_atNN nn).loads s⟩⟩

end Sys2Proof.Machine

/-! The family of 44_ld16.md: the 16-bit loads (O41 to O43). A load of a pair or of SP is one pair write and makes no access
(`runsIn_setReg16_of_exec`); a word stored is two writes into neighbouring cells (`stores_write_write`). -/

namespace Sys2Proof.Machine

/-! ## Two writes -/

/-- A write never sets the latch (R68), so it puts no address under the overlay. -/
theorem Env.overlaid_of_overlaid_write {e : Env} {a b : Addr} {v : Byte} (h : (e.write a v).overlaid b = true) :
    e.overlaid b = true := by
  simp only [Env.overlaid, Env.write_cfg, Env.write_bootEn, Bool.and_eq_true] at h ⊢
  obtain ⟨⟨hbus, hboot, -⟩, hb⟩ := h
  exact ⟨⟨hbus, hboot⟩, hb⟩

/-- What a second write reaches, it would have reached before the first. -/
theorem Reaches.of_write {e : Env} {a w b : Addr} {v x : Byte} (h : Reaches (e.write a v) w x b) : Reaches e w x b := by
  simp only [Reaches, Env.write_ramCell, Env.disablesBoot, Env.write_cfg] at h ⊢
  exact h.imp id (And.imp id Env.overlaid_of_overlaid_write)

/-- `Env.peek_write_other` in the words of `Reaches`. -/
theorem Env.peek_write_of_not_reaches {e : Env} {w a : Addr} {v : Byte} (hx : e.cfg.bus ≠ .external)
    (h : ¬Reaches e w v a) : (e.write w v).peek a = e.peek a := by
  obtain ⟨hcell, hboot⟩ := not_or.mp h
  exact e.peek_write_other w v a hx (not_and.mp hcell) fun hd => Bool.eq_false_of_not_eq_true (not_and.mp hboot hd)

/-- A RAM cell is reached only through an address that has the same cell. -/
theorem not_reaches_of_ramCell_ne {e : Env} {w a : Addr} {v : Byte} {k : Nat} (ha : e.ramCell a = some k)
    (hw : e.ramCell w ≠ some k) : ¬Reaches e w v a := by
  rintro (⟨-, hcell⟩ | ⟨-, ho⟩)
  · exact hw (hcell.symm.trans ha)
  · exact nomatch ha.symm.trans (Env.ramCell_overlaid ho)

/-- Two writes that do not land in one RAM cell. -/
theorem stores_write_write {s t : State} {a b : Addr} {v w : Byte}
    (hab : ∀ k, s.env.ramCell a = some k → s.env.ramCell b ≠ some k)
    (h : t.env = (s.env.write a v).write b w) : Stores [] [(a, v), (b, w)] s t := by
  have hbus : (s.env.write a v).cfg.bus = s.env.cfg.bus := congrArg Config.bus (s.env.write_cfg a v)
  refine ⟨h, fun hx c hc => ?_, fun hwf p hp hp' c hpc => ?_⟩
  · obtain ⟨ha, hb⟩ := List.forall_mem_cons.mp hc
    have hb' : ¬Reaches (s.env.write a v) b w c := mt Reaches.of_write (hb (b, w) (List.mem_singleton_self _))
    rw [h, Env.peek_write_of_not_reaches (hbus ▸ hx) hb', Env.peek_write_of_not_reaches hx ha]
  · obtain ⟨k, hk⟩ := Option.ne_none_iff_exists'.mp hp'
    have hx := Env.not_external hk
    have hck : s.env.ramCell c = some k := hpc.trans hk
    have hck' : (s.env.write a v).ramCell c = some k := (s.env.write_ramCell a v c).trans hck
    obtain rfl | rfl : p = (a, v) ∨ p = (b, w) := by simpa using hp
    · have hb' : ¬Reaches (s.env.write a v) b w c :=
        not_reaches_of_ramCell_ne hck' ((s.env.write_ramCell a v b).symm ▸ hab k hk)
      rw [h, Env.peek_write_of_not_reaches (hbus ▸ hx) hb', Env.peek_write_same hwf v hk hck]
    · have hk' : (s.env.write a v).ramCell b = some k := (s.env.write_ramCell a v b).trans hk
      rw [h, Env.peek_write_same (Env.write_wf hwf a v) w hk' hck']

/-! ## A pair written -/

/-- A pair write changes the halves of the pair alone; AF is left out, for its write changes the flags. -/
theorem frame_setReg16 (s : State) {rr : Reg16} (h : rr ≠ .af) (w : Word) :
    Frame (halves rr) [] s (complete (s.setReg16 rr w)) := by
  have hf : (complete (s.setReg16 rr w)).f = s.f := setReg16_f s h w
  refine ⟨fun r hr => (reg8_complete _ r).trans (reg8_setReg16 s hr w), fun _ _ => by rw [hf], by rw [hf], ?_⟩
  exact ⟨setReg16_opcode s rr w, setReg16_cb s rr w, setReg16_fetchAddr s rr w, setReg16_fault s rr w,
    setReg16_cfg s rr w, congrArg Env.cfg (setReg16_env s rr w), rfl, rfl, rfl, rfl, rfl⟩

/-- An instruction that writes a word to a pair or to SP and does no more takes a call for each of its bytes. -/
theorem runsIn_setReg16_of_exec {i : Instr} {s : State} {rr : Reg16} {w : Word} (hi : i ≠ .prefix_CB)
    (hj : jumpTaken i s.f = false) (hrr : rr ≠ .af) (hx : exec i s = .next (complete (s.setReg16 rr w))) :
    ∃ t, RunsIn (encode i).length i s t ∧ t.reg16 rr = w ∧ (rr ≠ .sp → t.sp = s.sp) ∧ t.pc = s.pc ∧
      Frame (halves rr) [] s t ∧ KeepsMemory [] s t ∧ DataEvents [] s t := by
  have hev : DataEvents [] s (complete (s.setReg16 rr w)) := dataEvents_of_bus_eq (setReg16_bus s rr w)
  have hr := runsIn_of_exec hi hx hev
  rw [hj] at hr
  exact ⟨_, hr, (reg16_complete _ rr).trans (reg16_setReg16 s rr w hrr), fun h => setReg16_sp s h w,
    setReg16_pc s rr w, frame_setReg16 s hrr w, keepsMemory_of_env_eq (setReg16_env s rr w), hev⟩

/-! ## Loads of a pair or of SP (R251, R253) -/

/-- `r16` never selects AF (R106). -/
theorem r16_ne_af (pp : BitVec 2) : r16 pp ≠ .af := by
  rcases field2_cases pp with rfl | rfl | rfl | rfl <;> decide

/-- `r16` selects SP by the field 3 alone (R106). -/
theorem r16_ne_sp {pp : BitVec 2} (h : pp ≠ 3) : r16 pp ≠ .sp := by
  rcases field2_cases pp with rfl | rfl | rfl | rfl
  case inr.inr.inr => exact absurd rfl h
  all_goals decide

theorem ldRrNn_ne_prefix_CB (pp : BitVec 2) (nn : Word) : ldRrNn pp nn ≠ .prefix_CB := by
  rcases field2_cases pp with rfl | rfl | rfl | rfl <;> nofun

theorem jumpTaken_ldRrNn (pp : BitVec 2) (nn : Word) (f : Byte) : jumpTaken (ldRrNn pp nn) f = false := by
  rcases field2_cases pp with rfl | rfl | rfl | rfl <;> rfl

/-- Settles O41: the word is taken with the instruction's bytes, so the load is the pair write alone. -/
theorem loadPairImmediate : Obligations.LoadPairImmediate := by
  unfold Obligations.LoadPairImmediate
  refine fun pp nn => ⟨encode_ldRrNn pp nn, fun s => ?_⟩
  obtain ⟨t, hr, hw, hsp, hrest⟩ := runsIn_setReg16_of_exec (ldRrNn_ne_prefix_CB pp nn) (jumpTaken_ldRrNn pp nn s.f)
    (r16_ne_af pp) (exec_ldRrNn pp nn s)
  rw [encode_ldRrNn] at hr
  exact ⟨t, hr, hw, fun h => hsp (r16_ne_sp h), hrest⟩

theorem exec_ld_SP_HL (s : State) : exec .ld_SP_HL s = .next (complete (s.setReg16 .sp (s.reg16 .hl))) := rfl

/-- Settles O43: the source is a pair, so the load is the write of SP alone. -/
theorem loadStackPointerFromHL : Obligations.LoadStackPointerFromHL := by
  unfold Obligations.LoadStackPointerFromHL
  refine ⟨rfl, fun s => ?_⟩
  obtain ⟨t, hr, hw, -, hrest⟩ := runsIn_setReg16_of_exec (i := .ld_SP_HL) (rr := .sp) nofun rfl nofun (exec_ld_SP_HL s)
  exact ⟨t, hr, hw, hrest⟩

/-! ## The store of SP (R252) -/

theorem exec_ld_atNN_SP (nn : Word) (s : State) :
    exec (.ld_atNN_SP nn) s = .next (complete (memWrite16 nn s.sp s)) := rfl

theorem write_direct16 (a : Addr) (w : Word) (s : State) :
    (Operand16.direct16 a).write w s = .next (memWrite16 a w s) := rfl

theorem frame_memWrite16 (a : Addr) (w : Word) (s : State) : Frame [] [] s (complete (memWrite16 a w s)) := by
  obtain ⟨-, hop, hcb, hfa, hfault, hcfg, hf, -⟩ := Operand16.write_next (write_direct16 a w s)
  have hf' : (complete (memWrite16 a w s)).f = s.f := hf nofun
  have hreg (r : Reg8) : (complete (memWrite16 a w s)).reg8 r = s.reg8 r := by simp [memWrite16]
  have henv : (complete (memWrite16 a w s)).env.cfg = s.env.cfg := by simp [memWrite16]
  exact ⟨fun r _ => hreg r, fun _ _ => by rw [hf'], by rw [hf'], hop, hcb, hfa, hfault, hcfg, henv, rfl, rfl, rfl, rfl,
    rfl⟩

theorem keepsPointers_memWrite16 (a : Addr) (w : Word) (s : State) : KeepsPointers s (complete (memWrite16 a w s)) := by
  obtain ⟨hpc, -⟩ := Operand16.write_next (write_direct16 a w s)
  have hsp : (memWrite16 a w s).sp = s.sp := Operand16.write_sp (k := .direct16 a) nofun (write_direct16 a w s)
  exact ⟨hsp, hpc⟩

/-- Settles O42: the two bytes go to neighbouring addresses, which share no RAM cell, so neither write undoes the other. -/
theorem storeStackPointer : Obligations.StoreStackPointer := by
  unfold Obligations.StoreStackPointer
  refine fun nn => ⟨rfl, fun s => ?_⟩
  obtain ⟨-, -, -, -, -, -, -, henv, hbus⟩ := Operand16.write_next (write_direct16 nn s.sp s)
  have hstores : Stores [] [(nn, lo8 s.sp), (nn + 1, hi8 s.sp)] s (complete (memWrite16 nn s.sp s)) :=
    stores_write_write (fun _ => Env.ramCell_next) henv
  have hruns := runsIn_of_exec (i := .ld_atNN_SP nn) nofun (exec_ld_atNN_SP nn s) hbus
  exact ⟨_, hruns, hstores, frame_memWrite16 nn s.sp s, keepsPointers_memWrite16 nn s.sp s, hbus⟩

end Sys2Proof.Machine

/-! The family of 45_cp.md: the flags of a compare (O28) and CP in its three forms (O44). CP reads one operand and writes F
alone; what such an instruction does is proved once, for any operand and any flags (`runsIn_read_setF_of_exec`), and the
forms of CP differ in their bytes and in the operand. -/

namespace Sys2Proof.Machine

/-! ## The flags of a compare (R260) -/

theorem nibble_toNat (v : Byte) : (nibble v).toNat = v.toNat % 16 := by simp [nibble]

/-- Settles O28: each flag by `cpFlags_flag`, Z because a difference is zero between equal bytes alone. -/
theorem compareFlags : Obligations.CompareFlags := by
  unfold Obligations.CompareFlags
  intro a v f
  have hz : getFlag .z (cpFlags a v f) = true ↔ a = v := by rw [cpFlags_flag, decide_eq_true_iff, sub_eq_zero]
  have hh : getFlag .h (cpFlags a v f) = decide (a.toNat % 16 < v.toNat % 16) := by
    rw [cpFlags_flag, nibble_toNat, nibble_toNat]
  exact ⟨cpFlags_flag a v f .z, hz, cpFlags_flag a v f .n, hh, cpFlags_flag a v f .c, cpFlags_nibble a v f⟩

/-! ## An instruction that reads an operand and writes F -/

/-- Beside the registers that the read moves, only F changes, and of F only the flags named. -/
theorem frame_read_setF (k : Operand8) (s : State) {flags : List Flag} {g : Byte}
    (hg : ∀ fl, fl ∉ flags → getFlag fl g = getFlag fl s.f) (hn : nibble g = nibble s.f) :
    Frame k.readRegs flags s (complete ((k.read s).2.setF g)) := by
  obtain ⟨hcfg, henv⟩ := Prod.mk.inj (k.read_config s)
  exact ⟨fun r hr => Operand8.read_reg8_of_not_mem s hr, hg, hn, k.read_opcode s, k.read_cb s, k.read_fetchAddr s,
    k.read_fault s, hcfg, henv, rfl, rfl, rfl, rfl, rfl⟩

/-- Such an instruction takes a call for each of its bytes and one for the data read, if its operand is in memory. -/
theorem runsIn_read_setF_of_exec {i : Instr} {k : Operand8} {s : State} {flags : List Flag} {g : Byte}
    (hi : i ≠ .prefix_CB) (hj : jumpTaken i s.f = false) (hx : exec i s = .next (complete ((k.read s).2.setF g)))
    (hg : ∀ fl, fl ∉ flags → getFlag fl g = getFlag fl s.f) (hn : nibble g = nibble s.f) :
    ∃ t, RunsIn ((encode i).length + (k.dataReads s).length) i s t ∧ t.f = g ∧ Frame k.readRegs flags s t ∧
      KeepsPointers s t ∧ KeepsMemory (k.addr s).toList s t ∧ DataEvents (k.dataReads s) s t := by
  have hev : DataEvents (k.dataReads s) s (complete ((k.read s).2.setF g)) := dataEvents_read rfl
  have hr := runsIn_of_exec hi hx hev
  rw [hj] at hr
  exact ⟨_, hr, rfl, frame_read_setF k s hg hn, ⟨k.read_sp s, k.read_pc s⟩, keepsMemory_read rfl, hev⟩

/-! ## CP (R261 to R263) -/

/-- CP reads its operand and writes the flags of the compare with A, which the read does not move. -/
theorem compareWithA_eq (k : Operand8) (s : State) :
    compareWithA k s = .next (complete ((k.read s).2.setF (cpFlags s.a (k.read s).1 s.f))) := by
  simp [compareWithA, State.setF]

/-- An instruction whose meaning is CP of an operand writes all four flags, and so names them all in its frame. -/
theorem runsIn_compareWithA_of_exec {i : Instr} {k : Operand8} {s : State} (hi : i ≠ .prefix_CB)
    (hj : jumpTaken i s.f = false) (hx : exec i s = compareWithA k s) :
    ∃ t, RunsIn ((encode i).length + (k.dataReads s).length) i s t ∧ t.f = cpFlags s.a (k.read s).1 s.f ∧
      Frame k.readRegs [.z, .n, .h, .c] s t ∧ KeepsPointers s t ∧ KeepsMemory (k.addr s).toList s t ∧
      DataEvents (k.dataReads s) s t := by
  have hall : ∀ fl : Flag, fl ∈ [Flag.z, .n, .h, .c] := by intro fl; cases fl <;> decide
  exact runsIn_read_setF_of_exec hi hj (hx.trans (compareWithA_eq k s)) (fun fl h => absurd (hall fl) h)
    (cpFlags_nibble _ _ _)

theorem cpR_ne_prefix_CB (r : Reg8) : cpR r ≠ .prefix_CB := by cases r <;> nofun

theorem jumpTaken_cpR (r : Reg8) (f : Byte) : jumpTaken (cpR r) f = false := by cases r <;> rfl

theorem exec_cp_atHL (s : State) : exec .cp_atHL s = compareWithA (.ind .hl) s := rfl

theorem exec_cp_n (n : Byte) (s : State) : exec (.cp_n n) s = compareWithA (.imm8 n) s := rfl

/-- Settles O44: the operand is a register, the byte at HL, or the immediate, and only the second is a data access. -/
theorem compareInstructions : Obligations.CompareInstructions := by
  unfold Obligations.CompareInstructions
  refine ⟨fun r => ⟨encode_cpR r, fun s => ?_⟩,
    ⟨rfl, fun s => runsIn_compareWithA_of_exec (i := .cp_atHL) nofun rfl (exec_cp_atHL s)⟩,
    fun n => ⟨rfl, fun s => runsIn_compareWithA_of_exec (i := .cp_n n) nofun rfl (exec_cp_n n s)⟩⟩
  have h := runsIn_compareWithA_of_exec (cpR_ne_prefix_CB r) (jumpTaken_cpR r s.f) (exec_cpR r s)
  rw [encode_cpR] at h
  exact h

end Sys2Proof.Machine

/-! The family of 46_incdec.md: INC8 and DEC8 (O29), and INC and DEC of a register (O45), of the byte at HL (O46) and of a
pair (O47). The first two forms are one read-modify-write handler (`modify`) over operands of their own (`IsModify`), and
what such an instruction does is proved once for any computation; a pair form is one pair write. -/

namespace Sys2Proof.Machine

/-! ## INC8 and DEC8 (R270, R271) -/

theorem nibble_eq_iff (v : Byte) (n : BitVec 4) : nibble v = n ↔ v.toNat % 16 = n.toNat := by
  rw [← BitVec.toNat_inj, nibble_toNat]

/-- Settles O29: the flags by `inc8_flag` and `dec8_flag`; the results are the sum and the difference with 1, so each undoes
the other. -/
theorem incrementAndDecrementBytes : Obligations.IncrementAndDecrementBytes := by
  unfold Obligations.IncrementAndDecrementBytes
  intro v f
  have hinc : (v + 1).toNat = (v.toNat + 1) % 256 := BitVec.toNat_add v 1
  have hdec : (v - 1).toNat = (v.toNat + 255) % 256 := by rw [BitVec.toNat_sub, Nat.add_comm]; rfl
  have hih : getFlag .h (inc8 v f).2 = decide (v.toNat % 16 = 15) :=
    (inc8_flag v f .h).trans (decide_eq_decide.mpr (nibble_eq_iff v 0xF))
  have hdh : getFlag .h (dec8 v f).2 = decide (v.toNat % 16 = 0) :=
    (dec8_flag v f .h).trans (decide_eq_decide.mpr (nibble_eq_iff v 0x0))
  exact ⟨hinc, hdec, inc8_flag v f .z, dec8_flag v f .z, inc8_flag v f .n, dec8_flag v f .n, hih, hdh,
    inc8_flag v f .c, dec8_flag v f .c, inc8_nibble v f, dec8_nibble v f,
    fun _ => ⟨add_sub_cancel_right v 1, sub_add_cancel v 1⟩⟩

/-! ## An instruction that reads an operand, computes, and writes it back -/

/-- The computation leaves in F every flag but these, and F[3:0], as it finds them. -/
def WritesOnly (flags : List Flag) (op : Byte → Byte → Byte × Byte) : Prop :=
  ∀ v f, (∀ fl, fl ∉ flags → getFlag fl (op v f).2 = getFlag fl f) ∧ nibble (op v f).2 = nibble f

/-- A flag other than Z, N and Hf is Cf, which INC8 keeps. -/
theorem writesOnly_inc8 : WritesOnly [.z, .n, .h] inc8 := by
  refine fun v f => ⟨fun fl hfl => ?_, inc8_nibble v f⟩
  cases fl with
  | c => exact inc8_flag v f .c
  | _ => exact absurd (by decide) hfl

/-- A flag other than Z, N and Hf is Cf, which DEC8 keeps. -/
theorem writesOnly_dec8 : WritesOnly [.z, .n, .h] dec8 := by
  refine fun v f => ⟨fun fl hfl => ?_, dec8_nibble v f⟩
  cases fl with
  | c => exact dec8_flag v f .c
  | _ => exact absurd (by decide) hfl

/-- A read-modify-write writes the registers that its two accesses write, and the flags of its computation. -/
theorem modify_writes {op : Byte → Byte → Byte × Byte} {flags : List Flag} (hop : WritesOnly flags op) {k : Operand8}
    {s t : State} (h : modify op k s = .next t) : Frame (k.writeRegs ++ k.readRegs) flags s t := by
  obtain ⟨hf, -, -⟩ := modify_frame h
  obtain ⟨hcfg, henv⟩ := Prod.mk.inj (modify_config h)
  obtain ⟨hflags, hnibble⟩ := hop (k.read s).1 s.f
  obtain ⟨u, hw, rfl⟩ := modify_next h
  obtain ⟨-, -, -, hopcode, hcb, hfa, hfault, -⟩ := Operand8.write_next hw
  have hreg (r : Reg8) (hr : r ∉ k.writeRegs ++ k.readRegs) : (complete u).reg8 r = s.reg8 r := by
    obtain ⟨hwr, hrd⟩ := not_or.mp (List.mem_append.not.mp hr)
    rw [reg8_complete, Operand8.write_reg8_of_not_mem hw hwr]
    exact Operand8.read_reg8_of_not_mem s hrd
  exact ⟨hreg, fun fl hfl => by rw [hf, hflags fl hfl], by rw [hf, hnibble], hopcode.trans (k.read_opcode s),
    hcb.trans (k.read_cb s), hfa.trans (k.read_fetchAddr s), hfault.trans (k.read_fault s), hcfg, henv, rfl, rfl, rfl,
    rfl, rfl⟩

theorem modify_keepsPointers {op : Byte → Byte → Byte × Byte} {k : Operand8} {s t : State}
    (h : modify op k s = .next t) : KeepsPointers s t :=
  (modify_frame h).2

/-- A register computed on in place holds the result, and no access is made. -/
theorem modify_reg {op : Byte → Byte → Byte × Byte} {r : Reg8} {s t : State} (h : modify op (.reg r) s = .next t) :
    t.reg8 r = (op (s.reg8 r) s.f).1 ∧ t.env = s.env ∧ t.bus = s.bus := by
  obtain ⟨u, hw, rfl⟩ := modify_next h
  obtain ⟨-, -, -, -, -, -, -, -, henv, hbus⟩ := Operand8.write_next hw
  cases hw
  exact ⟨by rw [reg8_complete, reg8_setReg8, if_pos rfl]; rfl, henv, hbus⟩

/-- The byte at HL computed on in place: one read, then one write at the same address. -/
theorem modify_atHL_accesses {op : Byte → Byte → Byte × Byte} {s t : State} (h : modify op (.ind .hl) s = .next t) :
    let p := s.reg16 .hl
    let v := s.env.peek p
    t.env = (readAll s.env [p]).write p (op v s.f).1 ∧ DataEvents [.rd p v, .wr p (op v s.f).1] s t := by
  cases h
  exact ⟨rfl, List.append_assoc s.bus _ _⟩

/-- An instruction with these bytes that computes on an operand in place and writes these flags. -/
structure IsModify (i : Instr) (bytes : List Byte) (flags : List Flag) (op : Byte → Byte → Byte × Byte) (k : Operand8) :
    Prop where
  encode_eq : encode i = bytes
  exec_eq : ∀ s, exec i s = modify op k s
  ne_prefix_CB : i ≠ .prefix_CB
  no_jump : ∀ f, jumpTaken i f = false
  writesOnly : WritesOnly flags op

section
variable {i : Instr} {bytes : List Byte} {flags : List Flag} {op : Byte → Byte → Byte × Byte}

/-- It takes a call for each of its bytes and each data access. -/
theorem IsModify.runsIn {k : Operand8} (h : IsModify i bytes flags op k) {s t : State} {evs : List BusEvent}
    (ht : modify op k s = .next t) (hev : DataEvents evs s t) : RunsIn (bytes.length + evs.length) i s t := by
  have hr := runsIn_of_exec h.ne_prefix_CB ((h.exec_eq s).trans ht) hev
  simpa [h.encode_eq, h.no_jump] using hr

/-- On a register it takes a call for each of its bytes and no more. -/
theorem IsModify.inRegister {r : Reg8} (h : IsModify i bytes flags op (.reg r)) (s : State) :
    ∃ t, RunsIn bytes.length i s t ∧ t.reg8 r = (op (s.reg8 r) s.f).1 ∧ t.f = (op (s.reg8 r) s.f).2 ∧
      Frame [r] flags s t ∧ KeepsPointers s t ∧ KeepsMemory [] s t ∧ DataEvents [] s t := by
  obtain ⟨t, ht⟩ := modify_writable op (k := .reg r) nofun s
  obtain ⟨hf, -, -⟩ := modify_frame ht
  obtain ⟨hreg, henv, hbus⟩ := modify_reg ht
  have hev := dataEvents_of_bus_eq hbus
  exact ⟨t, h.runsIn ht hev, hreg, hf, modify_writes h.writesOnly ht, modify_keepsPointers ht, keepsMemory_of_env_eq henv,
    hev⟩

/-- On the byte at HL it takes two calls more, for the read and the write. -/
theorem IsModify.inMemory (h : IsModify i bytes flags op (.ind .hl)) (s : State) :
    let p := s.reg16 .hl
    let v := s.env.peek p
    ∃ t, RunsIn (bytes.length + 2) i s t ∧ Stores [p] [(p, (op v s.f).1)] s t ∧ t.f = (op v s.f).2 ∧
      Frame [] flags s t ∧ KeepsPointers s t ∧ DataEvents [.rd p v, .wr p (op v s.f).1] s t := by
  obtain ⟨t, ht⟩ := modify_writable op (k := .ind .hl) nofun s
  obtain ⟨hf, -, -⟩ := modify_frame ht
  obtain ⟨henv, hev⟩ := modify_atHL_accesses ht
  exact ⟨t, h.runsIn ht hev, stores_write henv, hf, modify_writes h.writesOnly ht, modify_keepsPointers ht, hev⟩

end

/-! ## INC and DEC of a byte (R272 to R275) -/

theorem isModify_incR (r : Reg8) : IsModify (incR r) [fieldsXyz 0 r.field 4] [.z, .n, .h] inc8 (.reg r) where
  encode_eq := encode_incR r
  exec_eq := exec_incR r
  ne_prefix_CB := by cases r <;> nofun
  no_jump := by cases r <;> exact fun _ => rfl
  writesOnly := writesOnly_inc8

theorem isModify_decR (r : Reg8) : IsModify (decR r) [fieldsXyz 0 r.field 5] [.z, .n, .h] dec8 (.reg r) where
  encode_eq := encode_decR r
  exec_eq := exec_decR r
  ne_prefix_CB := by cases r <;> nofun
  no_jump := by cases r <;> exact fun _ => rfl
  writesOnly := writesOnly_dec8

theorem isModify_inc_atHL : IsModify .inc_atHL [0x34] [.z, .n, .h] inc8 (.ind .hl) :=
  ⟨rfl, fun _ => rfl, nofun, fun _ => rfl, writesOnly_inc8⟩

theorem isModify_dec_atHL : IsModify .dec_atHL [0x35] [.z, .n, .h] dec8 (.ind .hl) :=
  ⟨rfl, fun _ => rfl, nofun, fun _ => rfl, writesOnly_dec8⟩

/-- Settles O45: a computation on a register in place makes no access. -/
theorem incrementDecrementRegister : Obligations.IncrementDecrementRegister := by
  unfold Obligations.IncrementDecrementRegister
  exact fun r => ⟨encode_incR r, encode_decR r, fun s =>
    ⟨(isModify_incR r).inRegister s, (isModify_decR r).inRegister s⟩⟩

/-- Settles O46: the byte and the flags are computed from the byte read, before the write. -/
theorem incrementDecrementMemory : Obligations.IncrementDecrementMemory := by
  unfold Obligations.IncrementDecrementMemory
  exact ⟨rfl, rfl, fun s => ⟨isModify_inc_atHL.inMemory s, isModify_dec_atHL.inMemory s⟩⟩

/-! ## INC and DEC of a pair (R276, R277) -/

/-- A frame that names no flag keeps F. -/
theorem Frame.f_eq {regs : List Reg8} {s t : State} (h : Frame regs [] s t) : t.f = s.f := by
  obtain ⟨-, hflags, hnibble, -⟩ := h
  have hflag (fl : Flag) : getFlag fl t.f = getFlag fl s.f := hflags fl List.not_mem_nil
  exact flags_ext (hflag .z) (hflag .n) (hflag .h) (hflag .c) hnibble

/-- An instruction of one byte that writes to the pair its `pp` field selects a word with this value. -/
theorem runsIn_r16_of_exec {i : Instr} {pp : BitVec 2} {b : Byte} {s : State} {w : Word} {n : Nat} (he : encode i = [b])
    (hi : i ≠ .prefix_CB) (hj : jumpTaken i s.f = false)
    (hx : exec i s = .next (complete (s.setReg16 (r16 pp) w))) (hn : w.toNat = n) :
    ∃ t, RunsIn 1 i s t ∧ (t.reg16 (r16 pp)).toNat = n ∧ (pp ≠ 3 → t.sp = s.sp) ∧ t.pc = s.pc ∧ t.f = s.f ∧
      Frame (halves (r16 pp)) [] s t ∧ KeepsMemory [] s t ∧ DataEvents [] s t := by
  obtain ⟨t, hr, rfl, hsp, hpc, hframe, hrest⟩ := runsIn_setReg16_of_exec hi hj (r16_ne_af pp) hx
  rw [he] at hr
  exact ⟨t, hr, hn, fun h => hsp (r16_ne_sp h), hpc, hframe.f_eq, hframe, hrest⟩

theorem incRr_ne_prefix_CB (pp : BitVec 2) : incRr pp ≠ .prefix_CB := by
  rcases field2_cases pp with rfl | rfl | rfl | rfl <;> nofun

theorem decRr_ne_prefix_CB (pp : BitVec 2) : decRr pp ≠ .prefix_CB := by
  rcases field2_cases pp with rfl | rfl | rfl | rfl <;> nofun

theorem jumpTaken_incRr (pp : BitVec 2) (f : Byte) : jumpTaken (incRr pp) f = false := by
  rcases field2_cases pp with rfl | rfl | rfl | rfl <;> rfl

theorem jumpTaken_decRr (pp : BitVec 2) (f : Byte) : jumpTaken (decRr pp) f = false := by
  rcases field2_cases pp with rfl | rfl | rfl | rfl <;> rfl

/-- Settles O47: the sum and the difference with 1 are taken in words of 16 bits, and no flag is computed. -/
theorem incrementDecrementPair : Obligations.IncrementDecrementPair := by
  unfold Obligations.IncrementDecrementPair
  refine fun pp => ⟨encode_incRr pp, encode_decRr pp, fun s => ?_⟩
  have hinc (w : Word) : (w + 1).toNat = (w.toNat + 1) % 65536 := BitVec.toNat_add w 1
  have hdec (w : Word) : (w - 1).toNat = (w.toNat + 65535) % 65536 := by rw [BitVec.toNat_sub, Nat.add_comm]; rfl
  exact ⟨runsIn_r16_of_exec (encode_incRr pp) (incRr_ne_prefix_CB pp) (jumpTaken_incRr pp s.f) (exec_incRr pp s) (hinc _),
    runsIn_r16_of_exec (encode_decRr pp) (decRr_ne_prefix_CB pp) (jumpTaken_decRr pp s.f) (exec_decRr pp s) (hdec _)⟩

end Sys2Proof.Machine

/-! The two round trips between bytes and instructions (O1, O2): the table entry of an instruction's own pair takes exactly
its immediates (`decode_instr`), once for the base table and, for a CB-table instruction, once more after PREFIX CB. -/

namespace Sys2Proof.Machine

/-- A well-formed `unimplemented` names a pair without a handler (R113). -/
theorem not_hasHandler_of_wellFormedIn {m : Implemented} {op : Byte} {cb : Bool}
    (hw : (Instr.unimplemented op cb).wellFormedIn m = true) : hasHandler m op cb = false := by
  simp only [Instr.wellFormedIn, Bool.and_eq_true, Bool.not_eq_true'] at hw
  exact hw.2

/-- In the table of its own pair a well-formed instruction decodes from its opcode byte and its immediates (R109, R142). -/
theorem decode_instr {m : Implemented} {i : Instr} (hw : i.wellFormedIn m = true) (rest : List Byte) :
    decode m i.isCb (i.opcode :: (i.immediates ++ rest)) = .ok (i, rest) := by
  by_cases hu : ∃ op cb, i = .unimplemented op cb
  · obtain ⟨op, cb, rfl⟩ := hu
    have he : entryIn m cb op = .absent := entryIn_of_not_hasHandler (not_hasHandler_of_wellFormedIn hw)
    simp only [decode, Instr.isCb, Instr.opcode, he]
    rfl
  · have hu' : ∀ op cb, i ≠ .unimplemented op cb := fun op cb e => hu ⟨op, cb, e⟩
    have he := entryIn_of_hasHandler (hasHandler_of_wellFormedIn hw hu')
    have hok := tableEntry_ok i.isCb i.opcode
    simp only [decode, he]
    obtain ht | ⟨f, ht, n, rfl⟩ | ⟨f, ht, nn, rfl⟩ := tableEntry_of_instr i hu' <;> rw [ht] at hok ⊢
    · obtain ⟨-, -, -, himm, -⟩ := hok
      rw [himm]
      rfl
    · obtain ⟨-, -, hf⟩ := hok
      obtain ⟨-, -, himm, -⟩ := hf n
      rw [himm]
      rfl
    · obtain ⟨-, -, hf⟩ := hok
      obtain ⟨-, -, himm, -⟩ := hf nn
      rw [himm]
      simp only [List.cons_append, List.nil_append, join_hi_lo]

/-- A well-formed instruction decodes from its bytes, whatever follows them; after PREFIX CB alone nothing may (R112). -/
theorem decodeInstrIn_encode {m : Implemented} {i : Instr} (hw : i.wellFormedIn m = true) {rest : List Byte}
    (hpre : i = .prefix_CB → rest = []) : decodeInstrIn m (encode i ++ rest) = .ok (i, rest) := by
  have hi := decode_instr hw rest
  cases hc : i.isCb with
  | false =>
    rw [hc] at hi
    rw [encode_base hc, List.cons_append]
    obtain ⟨op, tail, h, -⟩ | ⟨-, e⟩ := decodeInstrIn_cases m (i.opcode :: (i.immediates ++ rest))
    · cases hi.symm.trans h
      exact absurd (hpre rfl) nofun
    · rw [e, hi]
  | true =>
    rw [hc] at hi
    rw [encode_cb hc, List.cons_append, List.cons_append]
    have hcb : decode m false (0xCB :: i.opcode :: (i.immediates ++ rest)) =
        .ok (.prefix_CB, i.opcode :: (i.immediates ++ rest)) := decode_instr (prefix_CB_wellFormedIn hw hc) _
    obtain ⟨op, tail, h, e⟩ | ⟨hn, -⟩ := decodeInstrIn_cases m (0xCB :: i.opcode :: (i.immediates ++ rest))
    · cases hcb.symm.trans h
      rw [e, hi]
    · exact absurd hcb (hn _ _)

/-- Settles O1: the bytes of an instruction, with nothing and with anything after them. -/
theorem decodeEncodeRoundTrip : Obligations.DecodeEncodeRoundTrip := by
  unfold Obligations.DecodeEncodeRoundTrip
  intro m i hw
  have hown := decodeInstrIn_encode hw (rest := []) fun _ => rfl
  rw [List.append_nil] at hown
  exact ⟨hown, fun hi _ => decodeInstrIn_encode hw fun h => absurd h hi⟩

/-- Settles O2: `decodeInstrIn_sound`, from the decoder's table entries. -/
theorem decodedBytesEncodeBack : Obligations.DecodedBytesEncodeBack := by
  unfold Obligations.DecodedBytesEncodeBack
  intro m bytes rest i h
  obtain ⟨hb, hw⟩ := decodeInstrIn_sound h
  exact ⟨hb.symm, hw⟩

end Sys2Proof.Machine

/-! The family of 47_rl_bit.md: RL8 (O30) and the flags of a bit test (O31), and their instructions (O48, O49). RL8 moves
every bit of a ring of nine by one place (`ringBit_rl8`), so its period and its injectivity are facts about the ring; RL is
a read-modify-write (`IsModify`), BIT a read that writes F. -/

namespace Sys2Proof.Machine

/-! ## RL8 (R290) -/

/-- The bits of the result: the old carry, and above it bits 6 to 0 of the operand. -/
theorem rl8_getLsbD (v f : Byte) {i : Nat} (hi : i < 8) :
    (rl8 v f).1.getLsbD i = if i = 0 then getFlag .c f else v.getLsbD (i - 1) := by
  cases i with
  | zero => cases hc : getFlag .c f <;> simp [rl8, hc]
  | succ j => cases hc : getFlag .c f <;> simp [rl8, hc, hi, BitVec.getLsbD_eq_getElem (Nat.lt_of_succ_lt hi)]

/-- The nine bits that RL8 rotates, round and round: those of the byte, then the carry of F. -/
def ringBit (p : Byte × Byte) (i : Nat) : Bool := if i % 9 = 8 then getFlag .c p.2 else p.1.getLsbD (i % 9)

theorem ringBit_of_lt (p : Byte × Byte) {i : Nat} (hi : i < 8) : ringBit p i = p.1.getLsbD i := by
  have h9 : i % 9 = i := Nat.mod_eq_of_lt (by omega)
  rw [ringBit, h9, if_neg (by omega)]

theorem ringBit_add_nine (p : Byte × Byte) (i : Nat) : ringBit p (i + 9) = ringBit p i := by
  simp only [ringBit, Nat.add_mod_right]

/-- RL8 moves every bit of the ring up by one. -/
theorem ringBit_rl8 (p : Byte × Byte) (i : Nat) : ringBit (rl8 p.1 p.2) (i + 1) = ringBit p i := by
  have hi : i % 9 < 9 := Nat.mod_lt i (by decide)
  obtain h | h | h : i % 9 = 8 ∨ i % 9 = 7 ∨ i % 9 < 7 := by omega
  · have h' : (i + 1) % 9 = 0 := by omega
    rw [ringBit, ringBit, h, h', if_neg (by decide), if_pos rfl, rl8_getLsbD _ _ (by decide), if_pos rfl]
  · have h' : (i + 1) % 9 = 8 := by omega
    simp [ringBit, h, h', rl8_flag]
  · have h' : (i + 1) % 9 = i % 9 + 1 := by omega
    have hn : i % 9 ≠ 7 ∧ i % 9 ≠ 8 := by omega
    simp [ringBit, h', hn, rl8_getLsbD (i := i % 9 + 1) _ _ (by omega)]

/-- `n` applications move every bit up by `n`. -/
theorem ringBit_rlTimes (n : Nat) : ∀ (p : Byte × Byte) (i : Nat), ringBit (rlTimes n p) (i + n) = ringBit p i := by
  induction n with
  | zero => intro p i; rfl
  | succ n ih =>
    intro p i
    rw [rlTimes, Nat.add_comm n 1, ← Nat.add_assoc, ih, ringBit_rl8]

/-- The ring holds the byte and the carry, and no more. -/
theorem eq_of_ringBit_eq {p q : Byte × Byte} (h : ∀ i, ringBit p i = ringBit q i) :
    p.1 = q.1 ∧ getFlag .c p.2 = getFlag .c q.2 := by
  refine ⟨BitVec.eq_of_getLsbD_eq fun i hi => ?_, h 8⟩
  rw [← ringBit_of_lt p hi, ← ringBit_of_lt q hi, h]

theorem ringBit_congr {p q : Byte × Byte} (hv : p.1 = q.1) (hc : getFlag .c p.2 = getFlag .c q.2) (i : Nat) :
    ringBit p i = ringBit q i := by
  rw [ringBit, ringBit, hv, hc]

/-- Settles O30: equal rings after a rotation were equal before it, and nine rotations go once round the ring. -/
theorem rotateThroughCarry : Obligations.RotateThroughCarry := by
  unfold Obligations.RotateThroughCarry
  refine ⟨fun v f => ⟨fun i hi => rl8_getLsbD v f hi, rl8_flag v f .c, rl8_flag v f .z, rl8_flag v f .n, rl8_flag v f .h,
    rl8_nibble v f⟩, fun v v' f f' hv hc => ?_, fun v f => ?_, by decide, by decide⟩
  · refine eq_of_ringBit_eq (p := (v, f)) (q := (v', f')) fun i => ?_
    rw [← ringBit_rl8 (v, f), ← ringBit_rl8 (v', f')]
    exact ringBit_congr hv hc (i + 1)
  · refine eq_of_ringBit_eq (q := (v, f)) fun i => ?_
    rw [← ringBit_add_nine, ringBit_rlTimes]

/-! ## The flags of a bit test (R293) -/

/-- Settles O31: each flag by `bitFlags_flag`. -/
theorem bitTestFlags : Obligations.BitTestFlags := by
  unfold Obligations.BitTestFlags
  exact fun b v f => ⟨bitFlags_flag b v f .z, bitFlags_flag b v f .n, bitFlags_flag b v f .h, bitFlags_flag b v f .c,
    bitFlags_nibble b v f⟩

/-! ## RL (R291, R292) -/

/-- RL8 writes all four flags. -/
theorem writesOnly_rl8 : WritesOnly [.z, .n, .h, .c] rl8 := by
  refine fun v f => ⟨fun fl hfl => ?_, rl8_nibble v f⟩
  cases fl <;> exact absurd (by decide) hfl

theorem isModify_rlR (r : Reg8) : IsModify (rlR r) [0xCB, fieldsXyz 0 2 r.field] [.z, .n, .h, .c] rl8 (.reg r) where
  encode_eq := encode_rlR r
  exec_eq := exec_rlR r
  ne_prefix_CB := by cases r <;> nofun
  no_jump := by cases r <;> exact fun _ => rfl
  writesOnly := writesOnly_rl8

theorem isModify_rl_atHL : IsModify .rl_atHL [0xCB, 0x16] [.z, .n, .h, .c] rl8 (.ind .hl) :=
  ⟨rfl, fun _ => rfl, nofun, fun _ => rfl, writesOnly_rl8⟩

/-- Settles O48: RL is RL8 on its operand in place, a register or the byte at HL. -/
theorem rotateInstructions : Obligations.RotateInstructions := by
  unfold Obligations.RotateInstructions
  exact ⟨fun r => ⟨encode_rlR r, (isModify_rlR r).inRegister⟩, rfl, isModify_rl_atHL.inMemory⟩

/-! ## BIT (R294, R295) -/

/-- BIT reads its operand and writes the flags of the test. -/
theorem bitTest_eq (b : BitVec 3) (k : Operand8) (s : State) :
    bitTest b k s = .next (complete ((k.read s).2.setF (bitFlags b (k.read s).1 s.f))) := by
  simp [bitTest, State.setF]

/-- A flag other than Z, N and Hf is Cf, which a bit test keeps. -/
theorem bitFlags_keeps {fl : Flag} (hfl : fl ∉ [Flag.z, .n, .h]) (b : BitVec 3) (v f : Byte) :
    getFlag fl (bitFlags b v f) = getFlag fl f := by
  cases fl with
  | c => exact bitFlags_flag b v f .c
  | _ => exact absurd (by decide) hfl

/-- An instruction whose meaning is a bit test of an operand. -/
theorem runsIn_bitTest_of_exec {i : Instr} {b : BitVec 3} {k : Operand8} {s : State} (hi : i ≠ .prefix_CB)
    (hj : jumpTaken i s.f = false) (hx : exec i s = bitTest b k s) :
    ∃ t, RunsIn ((encode i).length + (k.dataReads s).length) i s t ∧ t.f = bitFlags b (k.read s).1 s.f ∧
      Frame k.readRegs [.z, .n, .h] s t ∧ KeepsPointers s t ∧ KeepsMemory (k.addr s).toList s t ∧
      DataEvents (k.dataReads s) s t :=
  runsIn_read_setF_of_exec hi hj (hx.trans (bitTest_eq b k s)) (fun _ hfl => bitFlags_keeps hfl b _ _)
    (bitFlags_nibble b _ _)

theorem bitBR_ne_prefix_CB (b : BitVec 3) (r : Reg8) : bitBR b r ≠ .prefix_CB := by
  rcases field3_cases b with rfl | rfl | rfl | rfl | rfl | rfl | rfl | rfl <;> cases r <;> nofun

theorem jumpTaken_bitBR (b : BitVec 3) (r : Reg8) (f : Byte) : jumpTaken (bitBR b r) f = false := by
  rcases field3_cases b with rfl | rfl | rfl | rfl | rfl | rfl | rfl | rfl <;> cases r <;> rfl

theorem bitBAtHL_ne_prefix_CB (b : BitVec 3) : bitBAtHL b ≠ .prefix_CB := by
  rcases field3_cases b with rfl | rfl | rfl | rfl | rfl | rfl | rfl | rfl <;> nofun

theorem jumpTaken_bitBAtHL (b : BitVec 3) (f : Byte) : jumpTaken (bitBAtHL b) f = false := by
  rcases field3_cases b with rfl | rfl | rfl | rfl | rfl | rfl | rfl | rfl <;> rfl

/-- Settles O49: the operand is a register or the byte at HL, and only the second is a data access. -/
theorem bitTestInstructions : Obligations.BitTestInstructions := by
  unfold Obligations.BitTestInstructions
  refine ⟨fun b r => ⟨encode_bitBR b r, fun s => ?_⟩, fun b => ⟨encode_bitBAtHL b, fun s => ?_⟩⟩
  · have h := runsIn_bitTest_of_exec (bitBR_ne_prefix_CB b r) (jumpTaken_bitBR b r s.f) (exec_bitBR b r s)
    rw [encode_bitBR] at h
    exact h
  · have h := runsIn_bitTest_of_exec (bitBAtHL_ne_prefix_CB b) (jumpTaken_bitBAtHL b s.f) (exec_bitBAtHL b s)
    rw [encode_bitBAtHL] at h
    exact h

end Sys2Proof.Machine

/-! The family of 48_push.md: PUSH (O50). A push is two writes into neighbouring cells below SP. -/

namespace Sys2Proof.Machine

/-- The address two below, by steps of one. -/
theorem sub_one_sub_one (a : Addr) : a - 1 - 1 = a - 2 := by
  rw [sub_sub]
  rfl

@[simp] theorem reg8_push16 (w : Word) (s : State) (r : Reg8) : (push16 w s).reg8 r = s.reg8 r := by cases r <;> rfl

/-- A push moves SP, so no other pair. -/
theorem reg16_push16 (w : Word) (s : State) {rr : Reg16} (h : rr ≠ .sp) : (push16 w s).reg16 rr = s.reg16 rr := by
  cases rr <;> first | rfl | contradiction

theorem frame_push16 (w : Word) (s : State) : Frame [] [] s (complete (push16 w s)) := by
  have hcfg : (push16 w s).env.cfg = s.env.cfg := by simp
  exact ⟨fun r _ => reg8_push16 w s r, fun _ _ => rfl, rfl, rfl, rfl, rfl, rfl, rfl, hcfg, rfl, rfl, rfl, rfl, rfl⟩

/-- The two bytes go to neighbouring addresses, which share no RAM cell. -/
theorem stores_push16 (w : Word) (s : State) :
    Stores [] [(s.sp - 1, hi8 w), (s.sp - 2, lo8 w)] s (complete (push16 w s)) := by
  have henv : (complete (push16 w s)).env = (s.env.write (s.sp - 1) (hi8 w)).write (s.sp - 2) (lo8 w) := by
    rw [complete_env, push16_env, sub_one_sub_one]
  refine stores_write_write (fun k hhi hlo => ?_) henv
  have hnext : s.sp - 2 + 1 = s.sp - 1 := by rw [← sub_one_sub_one, sub_add_cancel]
  exact Env.ramCell_next hlo (hnext ▸ hhi)

theorem dataEvents_push16 (w : Word) (s : State) :
    DataEvents [.wr (s.sp - 1) (hi8 w), .wr (s.sp - 2) (lo8 w)] s (complete (push16 w s)) := by
  rw [DataEvents, complete_bus, push16_bus, sub_one_sub_one, List.append_assoc]
  rfl

/-- `r16stk` never selects SP (R106). -/
theorem r16stk_ne_sp (pp : BitVec 2) : r16stk pp ≠ .sp := by
  rcases field2_cases pp with rfl | rfl | rfl | rfl <;> decide

theorem pushRr_ne_prefix_CB (pp : BitVec 2) : pushRr pp ≠ .prefix_CB := by
  rcases field2_cases pp with rfl | rfl | rfl | rfl <;> nofun

theorem jumpTaken_pushRr (pp : BitVec 2) (f : Byte) : jumpTaken (pushRr pp) f = false := by
  rcases field2_cases pp with rfl | rfl | rfl | rfl <;> rfl

/-- Settles O50: the pair is read before SP moves, and pushed. -/
theorem pushPair : Obligations.PushPair := by
  unfold Obligations.PushPair
  refine fun pp => ⟨encode_pushRr pp, fun s => ?_⟩
  have hev := dataEvents_push16 (s.reg16 (r16stk pp)) s
  have hr := runsIn_of_exec (pushRr_ne_prefix_CB pp) (exec_pushRr pp s) hev
  rw [encode_pushRr, jumpTaken_pushRr] at hr
  exact ⟨_, hr, sub_one_sub_one s.sp, rfl, stores_push16 _ s, frame_push16 _ s, reg16_push16 _ s (r16stk_ne_sp pp), hev⟩

end Sys2Proof.Machine

/-! The family of 49_jr.md: JR (O51). A jump moves PC or not, and touches nothing else. -/

namespace Sys2Proof.Machine

/-- PC after a JR whose bytes are taken (R321). -/
def jumpTarget (cc : Cond) (e : Byte) (s : State) : Addr := if condHolds cc s.f then s.pc + sext16 e else s.pc

theorem jumpRelative_eq (cc : Cond) (e : Byte) (s : State) :
    jumpRelative cc e s = .next (complete { s with pc := jumpTarget cc e s }) := by
  unfold jumpRelative jumpTarget
  split <;> rfl

/-- JR is taken exactly if its condition holds. -/
theorem jumpTaken_jrCc (cc : Cond) (e f : Byte) : jumpTaken (jrCc cc e) f = condHolds cc f := by cases cc <;> rfl

theorem jrCc_ne_prefix_CB (cc : Cond) (e : Byte) : jrCc cc e ≠ .prefix_CB := by cases cc <;> nofun

/-- `sext_16` keeps the signed value (R10). -/
theorem toInt_sext16 (e : Byte) : (sext16 e).toInt = e.toInt := BitVec.toInt_signExtend_of_le (by decide)

/-- Settles O51: beside PC, JR is "fetch next"; a taken one takes one call more. -/
theorem jumpRelativeConditional : Obligations.JumpRelativeConditional := by
  unfold Obligations.JumpRelativeConditional
  refine ⟨fun _ => ⟨rfl, rfl, rfl, rfl⟩, toInt_sext16, fun cc e => ⟨encode_jrCc cc e, fun s => ?_⟩⟩
  have hev : DataEvents [] s (complete { s with pc := jumpTarget cc e s }) := dataEvents_of_bus_eq rfl
  have hr := runsIn_of_exec (jrCc_ne_prefix_CB cc e) ((exec_jrCc cc e s).trans (jumpRelative_eq cc e s)) hev
  rw [encode_jrCc, jumpTaken_jrCc] at hr
  have hn : (if condHolds cc s.f then 3 else 2) = 2 + 0 + if condHolds cc s.f then 1 else 0 := by split <;> rfl
  exact ⟨complete { s with pc := jumpTarget cc e s }, hn ▸ hr, rfl, rfl, frame_complete s, keepsMemory_of_env_eq rfl,
    hev⟩

end Sys2Proof.Machine

/-! The family of 60_exceptions.md: the fault of a pair without a handler (O9) and what a step leaves at it (O10). The pair
is an instruction that a step fetches like any other, so the state at the fault is the one after its bytes, the record
stored. -/

namespace Sys2Proof.Machine

theorem exec_unimplemented (op : Byte) (cb : Bool) (s : State) :
    exec (.unimplemented op cb) s = .fault (.unimplementedOpcode (enterFault .unimplementedOpcode op cb s)) := rfl

/-- Settles O9: the meaning is the fault entry, whose fields are those of `enterFault`. -/
theorem unimplementedStops : Obligations.UnimplementedStops := by
  unfold Obligations.UnimplementedStops
  exact fun op cb s => ⟨_, exec_unimplemented op cb s, enterFault_phase _ op cb s, enterFault_fault _ op cb s⟩

theorem encode_unimplemented (op : Byte) (cb : Bool) :
    encode (.unimplemented op cb) = if cb then [0xCB, op] else [op] := by
  cases cb <;> rfl

/-- Reads touch neither memory nor the latch. -/
theorem readAll_keeps (reads : List Addr) : ∀ e : Env,
    (readAll e reads).mem = e.mem ∧ (readAll e reads).bootEn = e.bootEn := by
  induction reads with
  | nil => exact fun _ => ⟨rfl, rfl⟩
  | cons a rest ih =>
    intro e
    obtain ⟨hm, hb⟩ := ih (e.afterRead a)
    exact ⟨hm.trans (e.afterRead_mem a), hb.trans (e.afterRead_bootEn a)⟩

theorem keepsMemory_readAll {s t : State} {reads : List Addr} (h : t.env = readAll s.env reads) :
    KeepsMemory reads s t := by
  obtain ⟨hm, hb⟩ := readAll_keeps reads s.env
  refine ⟨h, by rw [h, hm], by rw [h, hb], fun hx => ?_⟩
  rw [h, readAll_of_not_external hx]
  exact ⟨rfl, fun _ => rfl⟩

theorem reg8_afterFetch (i : Instr) (s : State) (r : Reg8) : (afterFetch i s).reg8 r = s.reg8 r := by cases r <;> rfl

/-- Where a pair without a handler stands at PC a step fetches it as an instruction of its own (R113). -/
theorem fetches_unimplemented {s : State} {op : Byte} {cb : Bool} (hp : s.phase = .fetch)
    (ha : s.env.cfg.accepted = true) (hn : hasHandler s.cfg.implemented op cb = false)
    (hpre : cb = true → hasHandler s.cfg.implemented 0xCB false = true)
    (hb : bytesAt s.env s.pc (if cb then 2 else 1) = if cb then [0xCB, op] else [op]) :
    Fetches (.unimplemented op cb) s := by
  refine ⟨hp, ha, (decodesTo_unimplemented hn).wellFormedIn hpre, ?_⟩
  have hlen : (encode (.unimplemented op cb)).length = if cb then 2 else 1 := by cases cb <;> rfl
  rw [hlen, hb, encode_unimplemented]

/-- Settles O10: the step is the fault entry after the one or two bytes of the pair. -/
theorem faultEntryIsPrecise : Obligations.FaultEntryIsPrecise := by
  unfold Obligations.FaultEntryIsPrecise
  intro s op cb hp ha hn hpre hb
  have hs := step_fetches (fetches_unimplemented hp ha hn hpre hb) nofun
  have hpc : (afterFetch (.unimplemented op cb) s).pc = if cb then s.pc + 2 else s.pc + 1 := by cases cb <;> rfl
  have henv : (afterFetch (.unimplemented op cb) s).env =
      readAll s.env (if cb then [s.pc, s.pc + 1] else [s.pc]) := by cases cb <;> rfl
  have hbus : (afterFetch (.unimplemented op cb) s).bus =
      if cb then [.rd s.pc 0xCB, .rd (s.pc + 1) op] else [.rd s.pc op] := by cases cb <;> rfl
  exact ⟨_, hs.trans (exec_unimplemented op cb _), rfl, rfl, hpc, rfl, rfl, reg8_afterFetch (.unimplemented op cb) s,
    rfl, rfl, rfl, keepsMemory_readAll henv, hbus⟩

end Sys2Proof.Machine
